-- ==== Sys2Proof/Word.lean ====
section
/-! DEFINITION. The byte of the control link and of the gyro link, and the names of a byte sequence (R175, R138). -/

namespace Sys2Proof

/-- One byte of a serial link frame (R175). -/
abbrev Byte := BitVec 8

/-- The bytes of one transaction, or of the parameters inside one, first byte first (R175). -/
abbrev Bytes := List Byte

end Sys2Proof
end

