-- ==== Sys2Proof/Syntax.lean ====
section
/-! DEFINITION. The commands: one constructor per row of spec/opcode_table.json, in the table's order. A request carries
the parameter bytes of its frame (`p`, R175, R177), so that a length or a byte that R177 turns away can be written down;
an event carries what its block receives with it. Log 4 and log 21 name the operand forms. -/

namespace Sys2Proof

/-- The three stepped axes (R44); as a named choice ZOOM is 0, FOCUS 1 and IRIS 2 (R177). -/
inductive AxisId where
  | zoom | focus | iris
  deriving DecidableEq, Repr

/-- The two release switch lines (R152). -/
inductive SwitchLine where
  | half | full
  deriving DecidableEq, Repr

/-- The commands of the part. -/
inductive Instr where
  /-- RESETN is released, with the contacts and the accessory-sense lines reading as given (R180, R172, R41). -/
  | powerOnReset (halfClosed fullClosed asense1 asense0 : Bool)
  /-- A request transaction carrying these bytes ends in FREE and is turned away (R175). -/
  | requestFrameRejected (frame : Bytes)
  /-- A transaction that carries no byte (R175). -/
  | emptyTransaction
  /-- A request transaction carrying these bytes ends in WORKING or ANSWERING (R176). -/
  | requestFrameDropped (frame : Bytes)
  /-- A transaction of `carried` bytes, the first of them 0 (R176). -/
  | readTransaction (carried : Nat)
  | mapRead (p : Bytes)
  | mapProbe (p : Bytes)
  | mapWrite (p : Bytes)
  | mapInstall (p : Bytes)
  | mapRetire (p : Bytes)
  | mapPurge (p : Bytes)
  | mapLock (p : Bytes)
  | mapStatus (p : Bytes)
  | queueDrain
  | updateReport
  | setMode (p : Bytes)
  | readLens (p : Bytes)
  /-- The sampling timer expires with these levels on the accessory-sense lines (R26). -/
  | accessorySample (asense1 asense0 : Bool)
  | refillTimerExpiry
  | pinReleaseNotice
  /-- AXIS_HOME, with the level its axis's home sensor reads at the request (R51, R52). -/
  | axisHome (p : Bytes) (sensor : Bool)
  | axisMove (p : Bytes)
  | axisStop (p : Bytes)
  | axisCollect (p : Bytes)
  | axisProfile (p : Bytes)
  | axisRead (p : Bytes)
  /-- The step timer of the axis expires, with the level its home sensor reads (R46, R52). -/
  | stepIntervalExpiry (a : AxisId) (sensor : Bool)
  /-- The wake timer of the axis expires, with the level its home sensor reads (R49, R52). -/
  | wakeTimerExpiry (a : AxisId) (sensor : Bool)
  | settleTimerExpiry (a : AxisId)
  | holdReleaseExpiry (a : AxisId)
  | profileHoldOffExpiry
  | trackingLoad
  | sweepStart (p : Bytes)
  | sweepPreset (p : Bytes)
  | sweepContrast (p : Bytes)
  | sweepRead (p : Bytes)
  | contrastDeadlineExpiry
  | meterSetup (p : Bytes)
  | meterEnable (p : Bytes)
  | meterStart (p : Bytes)
  | meterStop (p : Bytes)
  | meterRead (p : Bytes)
  | meterClear (p : Bytes)
  | meterReference (p : Bytes)
  | frameStartPulse
  /-- The working target is reached at this time base count (R106). -/
  | referenceTargetReached (timeBase : Nat)
  /-- The time base is exhausted with this many reference pulses counted (R106). -/
  | timeBaseExhausted (pulses : Nat)
  /-- The sensor phase ends with this many zone pulses delivered in it (R107). -/
  | sensorPhaseEnd (pulses : Nat)
  | sceneCompute
  | exposureSetup (p : Bytes)
  | aeLock (p : Bytes)
  | aeUnlock (p : Bytes)
  | programWrite (p : Bytes)
  | exposureRead (p : Bytes)
  /-- A gyro transfer of four bytes: yaw low, yaw high, pitch low, pitch high (R138). -/
  | gyroSample (yawLow yawHigh pitchLow pitchHigh : Byte)
  /-- A gyro transfer of any other length (R138). -/
  | gyroTransferDiscarded (transfer : Bytes)
  | silenceTimerExpiry
  | stabLoadNotice
  | stabUnresolvedNotice
  | stabSetup (p : Bytes)
  | stabRead (p : Bytes)
  /-- The level on a switch line changes; `closed` is the contact's new position (R152). -/
  | switchLineChange (line : SwitchLine) (closed : Bool)
  | switchDebounceExpiry (line : SwitchLine)
  | shoot (p : Bytes)
  | steadyWaitExpiry
  | steadyNotice
  | exposureTimerExpiry
  | stallTimerExpiry
  | slotDeveloped (p : Bytes)
  | slotStored (p : Bytes)
  | slotDiscard (p : Bytes)
  | slotRead (p : Bytes)
  | storeCapacity (p : Bytes)
  | releaseSetup (p : Bytes)
  | sizeTableWrite (p : Bytes)
  | releaseRead (p : Bytes)
  | status (p : Bytes)
  | clear (p : Bytes)
  | standby (p : Bytes)
  | wake (p : Bytes)
  | ownerPlacesAnswer
  deriving DecidableEq, Repr

end Sys2Proof
end

