-- ==== Sys2Proof/Decode.lean ====
section
/-! DEFINITION. spec/opcode_table.json gives no row any bits, so no word spells a command (`decodeTableWord`, log 20).
What the spec does encode is the request frame (R175): its judgement, the request codes, and the command that a frame names,
with the encoder beside them. -/

namespace Sys2Proof

/-- No row of the table has bits: no word spells a command. -/
def decodeTableWord (_nbits _w : Nat) : Option Instr := none

/-- The sum of a frame's bytes, modulo 256 (R175). -/
def frameSum (frame : Bytes) : Byte := frame.foldr (· + ·) 0#8

/-- The byte that makes a frame sum to 0: the two's complement of the sum of the bytes before it (R175). -/
def checkByte (body : Bytes) : Byte := -frameSum body

/-- What the Link Interface makes of a request transaction at steps 1 to 3 of R175. -/
inductive FrameJudgement where
  /-- Step 1: fewer than three bytes, a length above 60, or a number of bytes other than n + 3. -/
  | malformed
  /-- Step 2: the bytes do not sum to 0. -/
  | badCheck
  /-- Steps 3 to 5: a sound frame with this request code and these parameters. -/
  | sound (code : Nat) (p : Bytes)
  deriving DecidableEq, Repr

/-- Steps 1 and 2 of R175. -/
def judgeFrame (frame : Bytes) : FrameJudgement :=
  match frame with
  | code :: len :: rest =>
    if frame.length < 3 ∨ 60 < len.toNat ∨ frame.length ≠ len.toNat + 3 then .malformed
    else if frameSum frame ≠ 0#8 then .badCheck
    else .sound code.toNat (rest.take len.toNat)
  | _ => .malformed

/-- The request a code names (R175, the table of groups); none is a code that names no request. `sensor` is the level a home
sensor reads when AXIS_HOME is taken, which no frame carries (R52). -/
def requestOfCode (code : Nat) (p : Bytes) (sensor : Bool) : Option Instr :=
  match code with
  | 16 => some (.mapRead p)
  | 17 => some (.mapProbe p)
  | 18 => some (.mapWrite p)
  | 19 => some (.mapInstall p)
  | 20 => some (.mapRetire p)
  | 21 => some (.mapPurge p)
  | 22 => some (.mapLock p)
  | 23 => some (.mapStatus p)
  | 32 => some (.setMode p)
  | 33 => some (.readLens p)
  | 48 => some (.axisHome p sensor)
  | 49 => some (.axisMove p)
  | 50 => some (.axisStop p)
  | 51 => some (.axisCollect p)
  | 52 => some (.axisProfile p)
  | 53 => some (.axisRead p)
  | 64 => some (.sweepStart p)
  | 65 => some (.sweepPreset p)
  | 66 => some (.sweepContrast p)
  | 67 => some (.sweepRead p)
  | 80 => some (.meterSetup p)
  | 81 => some (.meterEnable p)
  | 82 => some (.meterStart p)
  | 83 => some (.meterStop p)
  | 84 => some (.meterRead p)
  | 85 => some (.meterClear p)
  | 86 => some (.meterReference p)
  | 96 => some (.exposureSetup p)
  | 97 => some (.aeLock p)
  | 98 => some (.aeUnlock p)
  | 99 => some (.programWrite p)
  | 100 => some (.exposureRead p)
  | 112 => some (.stabSetup p)
  | 113 => some (.stabRead p)
  | 128 => some (.releaseSetup p)
  | 129 => some (.shoot p)
  | 130 => some (.slotDeveloped p)
  | 131 => some (.slotStored p)
  | 132 => some (.slotDiscard p)
  | 133 => some (.slotRead p)
  | 134 => some (.storeCapacity p)
  | 135 => some (.sizeTableWrite p)
  | 136 => some (.releaseRead p)
  | 144 => some (.status p)
  | 145 => some (.clear p)
  | 146 => some (.standby p)
  | 147 => some (.wake p)
  | _ => none

/-- The request code and the parameters of a command that is a request; none is an event (R175). -/
def Instr.request? : Instr → Option (Nat × Bytes)
  | .mapRead p => some (16, p)
  | .mapProbe p => some (17, p)
  | .mapWrite p => some (18, p)
  | .mapInstall p => some (19, p)
  | .mapRetire p => some (20, p)
  | .mapPurge p => some (21, p)
  | .mapLock p => some (22, p)
  | .mapStatus p => some (23, p)
  | .setMode p => some (32, p)
  | .readLens p => some (33, p)
  | .axisHome p _ => some (48, p)
  | .axisMove p => some (49, p)
  | .axisStop p => some (50, p)
  | .axisCollect p => some (51, p)
  | .axisProfile p => some (52, p)
  | .axisRead p => some (53, p)
  | .sweepStart p => some (64, p)
  | .sweepPreset p => some (65, p)
  | .sweepContrast p => some (66, p)
  | .sweepRead p => some (67, p)
  | .meterSetup p => some (80, p)
  | .meterEnable p => some (81, p)
  | .meterStart p => some (82, p)
  | .meterStop p => some (83, p)
  | .meterRead p => some (84, p)
  | .meterClear p => some (85, p)
  | .meterReference p => some (86, p)
  | .exposureSetup p => some (96, p)
  | .aeLock p => some (97, p)
  | .aeUnlock p => some (98, p)
  | .programWrite p => some (99, p)
  | .exposureRead p => some (100, p)
  | .stabSetup p => some (112, p)
  | .stabRead p => some (113, p)
  | .releaseSetup p => some (128, p)
  | .shoot p => some (129, p)
  | .slotDeveloped p => some (130, p)
  | .slotStored p => some (131, p)
  | .slotDiscard p => some (132, p)
  | .slotRead p => some (133, p)
  | .storeCapacity p => some (134, p)
  | .sizeTableWrite p => some (135, p)
  | .releaseRead p => some (136, p)
  | .status p => some (144, p)
  | .clear p => some (145, p)
  | .standby p => some (146, p)
  | .wake p => some (147, p)
  | .powerOnReset _ _ _ _ | .requestFrameRejected _ | .emptyTransaction | .requestFrameDropped _ | .readTransaction _
  | .queueDrain | .updateReport | .accessorySample _ _ | .refillTimerExpiry | .pinReleaseNotice | .stepIntervalExpiry _ _
  | .wakeTimerExpiry _ _ | .settleTimerExpiry _ | .holdReleaseExpiry _ | .profileHoldOffExpiry | .trackingLoad
  | .contrastDeadlineExpiry | .frameStartPulse | .referenceTargetReached _ | .timeBaseExhausted _ | .sensorPhaseEnd _
  | .sceneCompute | .gyroSample _ _ _ _ | .gyroTransferDiscarded _ | .silenceTimerExpiry | .stabLoadNotice
  | .stabUnresolvedNotice | .switchLineChange _ _ | .switchDebounceExpiry _ | .steadyWaitExpiry | .steadyNotice
  | .exposureTimerExpiry | .stallTimerExpiry | .ownerPlacesAnswer => none

/-- The request frame of a code and its parameters (R175). -/
def requestFrame (code : Nat) (p : Bytes) : Bytes :=
  let body := BitVec.ofNat 8 code :: BitVec.ofNat 8 p.length :: p
  body ++ [checkByte body]

/-- The command that a request transaction names: steps 1 to 3 of R175. -/
def decodeFrame (frame : Bytes) (sensor : Bool) : Option Instr :=
  match judgeFrame frame with
  | .sound code p => requestOfCode code p sensor
  | _ => none

/-- The frame that carries a request; none is an event, which no frame carries. -/
def encodeFrame (i : Instr) : Option Bytes := i.request?.map fun r => requestFrame r.1 r.2

/-- The requests the Link Interface takes in standby (R182). -/
def takenInStandby (code : Nat) : Bool :=
  code = 147 ∨ code = 144 ∨ code = 23 ∨ code = 33 ∨ code = 53

end Sys2Proof
end

