-- ==== Sys2Proof/Config.lean ====
section
/-! DEFINITION. What the part fixes (durations, ranges, home limits) and the free values: constants with no body that
stand for what the spec leaves open. Each is applied to the counter `State.freeCount`, so that a later use is a fresh value. -/

namespace Sys2Proof.Config

/-- FREE VALUE. A choice between two orders that the spec allows: the parts of CLEAR (R86, R149; log 7) and of the
waking (R150; log 22). -/
opaque freeChoice : Nat → Bool

/-- FREE VALUE. A byte sent after the last byte of an answer frame in a longer read transaction (R176; log 18). -/
opaque freeByte : Nat → Byte

/-- Number of lens map places (R1). -/
abbrev mapPlaces : Nat := 32

/-- Number of picture slots (R163). -/
abbrev slotCount : Nat := 12

/-- Zoom positions to a band (00 §4.3). -/
def bandWidth : Nat := 25

/-- The update queue's capacity (R17). -/
def queueLimit : Nat := 4

/-- The time base count at which a reference phase is exhausted, in microseconds (R106). -/
def timeBaseLimit : Nat := 1048575

/-- The count at which the measurement counter stops (R107). -/
def counterLimit : Nat := 16777216

/-- Samples in a row that begin and end a pan (R140, R141). -/
def panSamples : Nat := 50

/-- The largest shift position on either side of the centre (R137). -/
def shiftLimit : Int := 600

/-- The largest integrator magnitude (R139). -/
def integratorLimit : Int := 8388607

/-- The largest owed tracking on either side of zero (R80). -/
def owedLimit : Int := 4095

/-- The largest gain of a solution, in sixteenths (R132). -/
def gainLimit : Nat := 96

/-- The substitute brightness of an OVER zone (R123). -/
def overValue : Nat := 384

/-- The substitute brightness of an UNDER zone (R123). -/
def underValue : Nat := 63

end Sys2Proof.Config
end

