-- ==== Sys2Proof/Machine/State.lean ====
section
/-! DEFINITION. The state of the part as plain data: one record for each block of 00 §2, the pins, the hand-offs between
blocks that have been made and not yet taken, and the queue of waiting commands; and the state right after reset. -/

namespace Sys2Proof.Machine

/-! ### Results and answers (10) -/

/-- The result codes of R178, in the order of their values. -/
inductive Result where
  | done | started | queued | notFound | none | unknownRequest | badParameter | busy | notHomed | axisFault
  | uncollected | holdOff | outOfLimits | noLens | pinned | duplicateKey | queueFull | updatesPending
  | notAwaiting | noExposure | noSlot | noCapacity | notFocused | wrongState | standby | linkError
  deriving DecidableEq, Repr

/-- What an answer frame carries: the result and the data (R175). -/
structure Answer where
  result : Result
  data : Bytes
  deriving DecidableEq, Repr

/-- The link states of R176; an answer stays with the state that waits to place or to send it, and `lost` is the LOST mark. -/
inductive LinkState where
  | free
  | working (answer : Answer) (lost : Bool)
  | answering (answer : Answer) (lost : Bool)
  deriving DecidableEq, Repr

/-! ### Lens Map (01) -/

/-- One lens map entry (R1). -/
structure Entry where
  context : Nat
  band : Nat
  global : Bool
  valid : Bool
  drivePermit : Bool
  offset : Int
  far : Nat
  near : Nat
  widestIris : Nat
  loss : Nat
  gain : Nat
  deriving DecidableEq, Repr

/-- A lens map update (R11 to R14). -/
inductive Update where
  | write (index : Fin 32) (entry : Entry)
  | install (entry : Entry)
  | retire (index : Fin 32)
  | purge (context : Nat)
  deriving DecidableEq, Repr

/-- The kind of a failed update (R20). -/
inductive RejectionKind where
  | write | install
  deriving DecidableEq, Repr

/-- The key of an entry (R1). -/
structure Key where
  context : Nat
  band : Nat
  global : Bool
  deriving DecidableEq, Repr

/-- The rejection record (R20). -/
structure Rejection where
  kind : RejectionKind
  index : Option (Fin 32)
  key : Option Key
  reason : Result
  conflicting : Fin 32
  deriving DecidableEq, Repr

/-- The Lens Map's state (R5, R7, R12, R16, R17, R20). -/
structure LensMap where
  entries : Vector Entry 32
  lockCount : Nat
  cursor : Fin 32
  queue : List Update
  lastInstall : Option (Fin 32)
  rejection : Option Rejection
  rejectionUnread : Bool
  deriving DecidableEq, Repr

/-- A report of an applied update: the indexes changed and whether the entry now there is valid (R21). -/
abbrev Report := List (Fin 32 × Bool)

/-! ### Band Resolver (02) -/

/-- The copied fields of the active lens record (R29). -/
structure LensFacts where
  context : Nat
  band : Nat
  global : Bool
  drivePermit : Bool
  offset : Int
  far : Nat
  near : Nat
  widestIris : Nat
  loss : Nat
  gain : Nat
  deriving DecidableEq, Repr

/-- A pair of optic context and band (R1). -/
structure Pair where
  context : Nat
  band : Nat
  deriving DecidableEq, Repr

/-- The active lens record (R29). -/
structure LensRecord where
  resolved : Bool
  facts : LensFacts
  source : Option (Fin 32)
  pair : Option Pair
  deriving DecidableEq, Repr

/-- Why a lookup was made (R30). -/
inductive MissSource where
  | zoomStep | context | update | wake
  deriving DecidableEq, Repr

/-- The miss record (R32). -/
structure Miss where
  context : Nat
  band : Nat
  source : MissSource
  deriving DecidableEq, Repr

/-- The Band Resolver's state (R25); the optic context and the pin count are computed. -/
structure Resolver where
  mode : Nat
  accessory : Nat
  sensed : Nat
  lastSample : Nat
  pendingCode : Option Nat
  record : LensRecord
  slotPin : Bool
  sweepPin : Bool
  deferred : Bool
  miss : Option Miss
  missUnread : Bool
  samplingTimer : Bool
  deriving DecidableEq, Repr

/-- The answer of a crossing lookup for `band` (R34): permitted, forbidden or missed. -/
inductive Crossing where
  | permitted (i : Fin 32)
  | forbidden
  | missed
  deriving DecidableEq, Repr

/-- The two holders of a pin (R36). -/
inductive PinHolder where
  | slot | sweep
  deriving DecidableEq, Repr

/-! ### Axis Controller (03) -/

/-- The axis states (R44). -/
inductive AxisState where
  | unhomed | homing | idle | waking | moving | waitMap | settling | fault
  deriving DecidableEq, Repr

/-- Step directions (R44). -/
inductive Direction where
  | towardHome | awayFromHome
  deriving DecidableEq, Repr

/-- Whether the coils are driven (R48). -/
inductive HoldState where
  | energized | released
  deriving DecidableEq, Repr

/-- Who a move is for (R44). -/
inductive Mover where
  | host | tracking | sweep | exposure
  deriving DecidableEq, Repr

/-- The pending stops (R44). -/
inductive StopPending where
  | none | stop | clear
  deriving DecidableEq, Repr

/-- Who holds an axis against host moves (R59). -/
inductive Ownership where
  | none | sweep | exposure
  deriving DecidableEq, Repr

/-- The completion outcomes, in the one order in which they are sent (R62). -/
inductive AxisOutcome where
  | homed | homeNotFound | reached | stopped | bandForbidden | mapMiss | sweepHit | sweepMiss | sweepOverrun
  deriving DecidableEq, Repr

/-- An axis profile (R45): microseconds, milliseconds and steps. -/
structure Profile where
  stepInterval : Nat
  settle : Nat
  holdRelease : Nat
  wake : Nat
  backlash : Nat
  deriving DecidableEq, Repr

/-- The sweep summary of a completion (R101). -/
structure SweepSummary where
  stopsPlanned : Nat
  stopNumber : Nat
  stopsJudged : Nat
  skipped : Nat
  bestValue : Option Nat
  bestPosition : Option Nat
  lastValue : Option Nat
  deriving DecidableEq, Repr

/-- The completion record of an axis (R62). -/
structure Completion where
  pending : Bool
  outcome : Option AxisOutcome
  finalPosition : Option Nat
  summary : Option SweepSummary
  deriving DecidableEq, Repr

/-- The outcome that the settling move ends with (R50, R53, R60, R72, R75): `reached` while no other is held. -/
inductive Ending where
  | reached | stopped | homed | bandForbidden | mapMiss
  deriving DecidableEq, Repr

/-- One axis record (R44) with its timers, each with the duration it was started for while it runs (R46, R49, R50), the
internal owner that has joined a host move (R58), and the mark that a CLEAR stop is to release the coils (R181). -/
structure AxisRecord where
  state : AxisState
  position : Option Nat
  target : Option Nat
  lastDirection : Direction
  backlashRemaining : Nat
  hold : HoldState
  mover : Option Mover
  joined : Option Mover
  stopPending : StopPending
  releaseAtRest : Bool
  homingCount : Nat
  ownership : Ownership
  profile : Profile
  completion : Completion
  ending : Ending
  stepTimer : Option Nat
  wakeTimer : Option Nat
  settleTimer : Option Nat
  holdTimer : Option Nat
  motorSteps : Int
  deriving DecidableEq, Repr

/-! ### Zoom and Tracking logic (04) -/

/-- The Zoom and Tracking logic's state (R73, R80, R85). -/
structure ZoomTravel where
  refillTimer : Bool
  bandWaited : Option Nat
  crossing : Option Direction
  owedMark : Bool
  owed : Int
  deriving DecidableEq, Repr

/-- A load handed to the Zoom and Tracking logic (R31, R78). -/
structure TrackLoad where
  facts : LensFacts
  reference : Int
  deriving DecidableEq, Repr

/-! ### Focus Sweep Unit (05) -/

/-- The sweep states (R87). -/
inductive SweepState where
  | none | travelling | awaiting | returning | stopping | ended
  deriving DecidableEq, Repr

/-- How a sweep was begun (R87). -/
inductive SweepOrigin where
  | host | half
  deriving DecidableEq, Repr

/-- How a contrast figure is judged (R95, R96). -/
inductive SweepCondition where
  | reach (threshold : Nat)
  | peak (margin : Nat)
  deriving DecidableEq, Repr

/-- How a sweep ended (R87). -/
inductive SweepOutcome where
  | hit | miss | overrun | released | stopped
  deriving DecidableEq, Repr

/-- The parameters of a sweep; `last` is the end of the series (R87, R89). -/
structure SweepParams where
  start : Nat
  last : Nat
  stride : Nat
  condition : SweepCondition
  deriving DecidableEq, Repr

/-- The best figure judged, its stop position and its stop number (R87). -/
structure Best where
  value : Nat
  position : Nat
  stop : Nat
  deriving DecidableEq, Repr

/-- The sweep record (R87). -/
structure SweepRecord where
  state : SweepState
  origin : SweepOrigin
  params : SweepParams
  stopsPlanned : Nat
  stopNumber : Option Nat
  stopPosition : Option Nat
  awaiting : Bool
  releasePending : Bool
  stopsJudged : Nat
  lastValue : Option Nat
  best : Option Best
  skipped : Nat
  outcome : Option SweepOutcome
  deriving DecidableEq, Repr

/-- The Focus Sweep Unit's state (R87, R90, R93). -/
structure SweepUnit where
  record : SweepRecord
  preset : SweepParams
  deadline : Bool
  deriving DecidableEq, Repr

/-! ### Metering Unit (06) -/

/-- Metering modes (R104). -/
inductive MeterMode where
  | single | continuous
  deriving DecidableEq, Repr

/-- Metering triggers (R105). -/
inductive Trigger where
  | request | frame | half
  deriving DecidableEq, Repr

/-- The metering setup (R104). -/
structure MeterSetup where
  first : Fin 8
  last : Fin 8
  mode : MeterMode
  trigger : Trigger
  target : Nat
  notify : Bool
  deriving DecidableEq, Repr

/-- The working range, mode and target (R104). -/
structure Working where
  first : Fin 8
  last : Fin 8
  mode : MeterMode
  target : Nat
  deriving DecidableEq, Repr

/-- Zone statuses (R108). -/
inductive ZoneStatus where
  | none | ok | over | under | refFault | ref
  deriving DecidableEq, Repr

/-- A zone result (R106, R107). -/
structure ZoneResult where
  status : ZoneStatus
  value : Option Nat
  deriving DecidableEq, Repr

/-- A zone record (R108). -/
structure ZoneRecord where
  result : ZoneResult
  fresh : Bool
  overwritten : Bool
  deriving DecidableEq, Repr

/-- The phases of a zone measurement (R106, R107). -/
inductive Phase where
  | reference | sensor
  deriving DecidableEq, Repr

/-- The Metering Unit's state (R104). -/
structure MeterUnit where
  enabled : Bool
  setup : MeterSetup
  reference : Bool
  running : Bool
  working : Option Working
  zone : Option (Fin 8)
  phase : Option Phase
  referenceTime : Option Nat
  counter : Nat
  timeBase : Nat
  zones : Vector ZoneRecord 8
  notice : Bool
  deriving DecidableEq, Repr

/-! ### Exposure Unit (07) -/

/-- Exposure modes (R122). -/
inductive ExposureMode where
  | auto | manual
  deriving DecidableEq, Repr

/-- Exposure settings: time in microseconds, iris step, gain in sixteenths (R122, R128). -/
structure Settings where
  time : Nat
  iris : Nat
  gain : Nat
  deriving DecidableEq, Repr

/-- The exposure setup (R125). -/
structure ExposureSetup where
  weights : Vector Nat 8
  compensation : Int
  mode : ExposureMode
  manual : Settings
  deriving DecidableEq, Repr

/-- A point of the exposure program (R128). -/
structure Point where
  evFrom : Int
  settings : Settings
  deriving DecidableEq, Repr

/-- A program being written in parts (R129). -/
structure Staging where
  total : Nat
  points : List Point
  deriving DecidableEq, Repr

/-- A valid scene's figures (R122). -/
structure Brightness where
  b : Nat
  loss : Nat
  ev : Int
  deriving DecidableEq, Repr

/-- The scene record; valid exactly when it has figures (R122, R123). -/
structure Scene where
  figures : Option Brightness
  uncorrected : Bool
  sweepCount : Nat
  deriving DecidableEq, Repr

/-- The AE lock (R126). -/
inductive AeLock where
  | none
  | pending
  | held (ev : Int) (uncorrected : Bool)
  deriving DecidableEq, Repr

/-- A solution (R133); `deficit` is present exactly when it is marked UNDEREXPOSED. -/
structure Solution where
  solved : Settings
  ev : Option Int
  mode : ExposureMode
  point : Option Nat
  chosenIris : Nat
  chosenGain : Nat
  widestIris : Nat
  locked : Bool
  uncorrected : Bool
  deficit : Option Nat
  deriving DecidableEq, Repr

/-- The Exposure Unit's state (R122). -/
structure ExposureUnit where
  setup : ExposureSetup
  program : List Point
  staging : Option Staging
  scene : Scene
  lock : AeLock
  solution : Option Solution
  deriving DecidableEq, Repr

/-! ### Stabilizer (08) -/

/-- The Stabilizer's states (R137). -/
inductive StabState where
  | off | centering | active | panning | held | fault
  deriving DecidableEq, Repr

/-- One axis of the Stabilizer (R137). -/
structure ShiftAxis where
  position : Int
  integrator : Int
  fast : Nat
  quiet : Nat
  panning : Bool
  deriving DecidableEq, Repr

/-- The Stabilizer's state (R137). -/
structure Stabilizer where
  enabled : Bool
  panThreshold : Nat
  state : StabState
  yaw : ShiftAxis
  pitch : ShiftAxis
  gain : Nat
  resolved : Bool
  silenceTimer : Bool
  faultUnread : Bool
  exposureOpen : Bool
  limitMark : Bool
  leftActive : Bool
  deriving DecidableEq, Repr

/-- What the Band Resolver tells the Stabilizer (R143). -/
inductive StabNotice where
  | load (gain : Nat)
  | unresolved
  deriving DecidableEq, Repr

/-! ### Release and Slot Controller (09) -/

/-- The release states (R151). -/
inductive ReleaseState where
  | opened | preparing | ready | firing | finishing
  deriving DecidableEq, Repr

/-- The switch positions (R151). -/
inductive SwitchPosition where
  | none | half | full
  deriving DecidableEq, Repr

/-- The release modes (R151). -/
inductive ReleaseMode where
  | single | burst
  deriving DecidableEq, Repr

/-- The release setup (R170). -/
structure ReleaseSetup where
  mode : ReleaseMode
  burstLimit : Nat
  focusPriority : Bool
  afOnHalf : Bool
  aeLockOnHalf : Bool
  steadyWait : Bool
  deriving DecidableEq, Repr

/-- The half-press sweep since the last half-press (R151). -/
inductive HalfSweep where
  | running | afSkipped | ended (outcome : SweepOutcome)
  deriving DecidableEq, Repr

/-- The end reasons of a burst, in the order in which they are sent (R151). -/
inductive EndReason where
  | limit | released | stalled | storeFull | cleared | notFocused | wrongState | noLens | busy | notHomed
  | noExposure | noSlot
  deriving DecidableEq, Repr

/-- The burst record (R151). -/
structure Burst where
  running : Bool
  shotsArmed : Nat
  current : Option (Fin 12)
  shotDue : Bool
  endReason : Option EndReason
  notice : Bool
  deriving DecidableEq, Repr

/-- The steady states (R159). -/
inductive Steady where
  | met | waiting | expired
  deriving DecidableEq, Repr

/-- The exposure control (R151). -/
structure ExposureControl where
  armed : Option (Fin 12)
  irisSettled : Bool
  steady : Steady
  deriving DecidableEq, Repr

/-- The slot states (R163). -/
inductive SlotState where
  | free | armed | exposing | exposed | developed
  deriving DecidableEq, Repr

/-- How a slot was armed (R163). -/
inductive ShotOrigin where
  | switch | shoot
  deriving DecidableEq, Repr

/-- The fields a slot holds from ARMED (R163); `deficit` is present exactly when it is marked UNDEREXPOSED. -/
structure Shot where
  origin : ShotOrigin
  number : Nat
  burstIndex : Nat
  settings : Settings
  ev : Option Int
  deficit : Option Nat
  context : Nat
  band : Nat
  zoomPosition : Nat
  deriving DecidableEq, Repr

/-- SHAKE and UNSTEADY of an exposure that has ended (R161). -/
structure Marks where
  shake : Bool
  unsteady : Bool
  deriving DecidableEq, Repr

/-- A picture slot (R163); a field that is absent in the slot's state holds nothing. -/
structure Slot where
  state : SlotState
  shot : Option Shot
  focus : Option Nat
  marks : Option Marks
  reservation : Option Nat
  size : Option Nat
  notice : Bool
  deriving DecidableEq, Repr

/-- The Release and Slot Controller's state (R151), with the shutter coil and the EXPOSE line (R160, R161). -/
structure Release where
  state : ReleaseState
  halfTaken : Bool
  fullTaken : Bool
  halfDebounce : Bool
  fullDebounce : Bool
  setup : ReleaseSetup
  sweepOutcome : Option HalfSweep
  sweepOwed : Bool
  lockAwaited : Bool
  awaitingFocus : Bool
  lastRefusal : Option Result
  burst : Burst
  finishingOn : Option (Fin 12)
  stallTimer : Bool
  control : ExposureControl
  steadyTimer : Bool
  exposureTimer : Option Nat
  shutter : Bool
  expose : Bool
  slots : Vector Slot 12
  sizeTable : Vector Nat 4
  storeFree : Nat
  shotCounter : Nat
  deriving DecidableEq, Repr

/-- What an arm answers (R157, R158): the refusal code, or the slot and the shot number. -/
inductive ArmAnswer where
  | refused (r : Result)
  | armed (slot : Fin 12) (number : Nat)
  deriving DecidableEq, Repr

/-- The judgments of a contrast figure (R94). -/
inductive Judgment where
  | nextStop | hit | miss | released
  deriving DecidableEq, Repr

/-! ### Parameters that are more than one number (10) -/

/-- One part of a program (R129): the total, the first point number and the points. -/
structure ProgramPart where
  total : Nat
  first : Nat
  points : List Point
  deriving DecidableEq, Repr

/-- The scopes of STANDBY (R181). -/
inductive StandbyScope where
  | all | locked | none
  deriving DecidableEq, Repr

/-! ### The whole part -/

/-- The levels last read on the input lines (10 §10.7); a contact is closed when its line is low (R152). -/
structure Pins where
  halfClosed : Bool
  fullClosed : Bool
  asense1 : Bool
  asense0 : Bool
  homeZoom : Bool
  homeFocus : Bool
  homeIris : Bool
  deriving DecidableEq, Repr

/-- Hand-offs made by one block and not yet taken by another, oldest first (log 1). -/
structure Handoffs where
  /-- Reports to the map that it is to examine its head (R19, R38, R42, R15). -/
  drains : Nat
  /-- Update reports to the Band Resolver (R21). -/
  reports : List Report
  /-- Loads to the Zoom and Tracking logic (R31). -/
  loads : List TrackLoad
  /-- Loads and unresolved notices to the Stabilizer (R31, R32). -/
  stab : List StabNotice
  /-- Passes handed to the Exposure Unit (R114). -/
  scenes : List (Vector ZoneResult 8)
  /-- Notices to the release that the Stabilizer entered ACTIVE (R142). -/
  steady : Nat
  /-- Notices to the release that the slot pin release has been taken (R36). -/
  pins : Nat
  deriving DecidableEq, Repr

/-- The state of the part. -/
structure State where
  map : LensMap
  resolver : Resolver
  zoom : AxisRecord
  focus : AxisRecord
  iris : AxisRecord
  travel : ZoomTravel
  holdOff : Bool
  sweep : SweepUnit
  meter : MeterUnit
  exposure : ExposureUnit
  stab : Stabilizer
  release : Release
  link : LinkState
  standby : Bool
  /-- The Axis Controller, the Metering Unit and the Release and Slot Controller have been handed their parts of the entry to
  standby and have not yet taken them (R181; log 9). -/
  entering : Bool
  /-- The bytes sent in the latest read transaction (the model's own record of LDO; log 17). -/
  sent : Bytes
  pins : Pins
  handoffs : Handoffs
  /-- The counter the free values are applied to (the model's own). -/
  freeCount : Nat
  /-- The commands that are waiting, first in first out. -/
  pending : List Instr
  deriving DecidableEq, Repr

/-- Nothing stops the part: the spec answers every request and names an effect, or none, for every event. -/
inductive Fault where
  deriving DecidableEq, Repr

/-- Why a command has no meaning here. -/
inductive Refusal where
  /-- Raised by `exec` alone, for a command that this model does not give a meaning yet. Safe: the machine stops. -/
  | notModelled (mnemonic : String)
  deriving DecidableEq, Repr

/-! ### Reset -/

/-- An entry with every field zero and clear (R22). -/
def Entry.zero : Entry := ⟨0, 0, false, false, false, 0, 0, 0, 0, 0, 0⟩

/-- The copied fields before the first load (R29). -/
def LensFacts.zero : LensFacts := ⟨0, 0, false, false, 0, 0, 0, 0, 0, 0⟩

/-- The profiles after power-on reset (R45). -/
def Profile.reset : AxisId → Profile
  | .zoom => ⟨1250, 10, 500, 5, 8⟩
  | .focus => ⟨400, 4, 300, 3, 12⟩
  | .iris => ⟨1000, 6, 0, 2, 0⟩

/-- A completion record with nothing posted (R68). -/
def Completion.empty : Completion := ⟨false, none, none, none⟩

/-- An axis record after power-on reset (R68). -/
def AxisRecord.reset (a : AxisId) : AxisRecord where
  state := .unhomed
  position := none
  target := none
  lastDirection := .towardHome
  backlashRemaining := 0
  hold := .released
  mover := none
  joined := none
  stopPending := .none
  releaseAtRest := false
  homingCount := 0
  ownership := .none
  profile := Profile.reset a
  completion := Completion.empty
  ending := .reached
  stepTimer := none
  wakeTimer := none
  settleTimer := none
  holdTimer := none
  motorSteps := 0

/-- A FREE slot with its fields cleared (R163). -/
def Slot.cleared : Slot := ⟨.free, none, none, none, none, none, false⟩

/-- The exposure control, cleared (R172; its steady state is a choice, log 17). -/
def ExposureControl.cleared : ExposureControl := ⟨none, false, .met⟩

/-- The Lens Map after power-on reset (R22). -/
def LensMap.reset : LensMap := ⟨Vector.replicate 32 Entry.zero, 0, 31, [], none, none, false⟩

/-- The Band Resolver after power-on reset with a first sample of 0 (R41). -/
def Resolver.reset : Resolver where
  mode := 0
  accessory := 0
  sensed := 0
  lastSample := 0
  pendingCode := none
  record := ⟨false, LensFacts.zero, none, none⟩
  slotPin := false
  sweepPin := false
  deferred := false
  miss := none
  missUnread := false
  samplingTimer := true

/-- The Focus Sweep Unit after power-on reset (R103, R90). -/
def SweepUnit.reset : SweepUnit where
  record := ⟨.none, .host, ⟨0, 0, 0, .reach 0⟩, 0, none, none, false, false, 0, none, none, 0, none⟩
  preset := ⟨0, 4095, 16, .peak 256⟩
  deadline := false

/-- The Metering Unit after power-on reset (R120). -/
def MeterUnit.reset : MeterUnit where
  enabled := false
  setup := ⟨0, 7, .single, .request, 4096, false⟩
  reference := false
  running := false
  working := none
  zone := none
  phase := none
  referenceTime := none
  counter := 0
  timeBase := 0
  zones := Vector.replicate 8 ⟨⟨.none, none⟩, false, false⟩
  notice := false

/-- The Exposure Unit after power-on reset (R135). -/
def ExposureUnit.reset : ExposureUnit where
  setup := ⟨Vector.replicate 8 1, 0, .auto, ⟨8000, 0, 0⟩⟩
  program := []
  staging := none
  scene := ⟨none, false, 0⟩
  lock := .none
  solution := none

/-- The Stabilizer after power-on reset (R148). -/
def Stabilizer.reset : Stabilizer where
  enabled := false
  panThreshold := 4000
  state := .off
  yaw := ⟨0, 0, 0, 0, false⟩
  pitch := ⟨0, 0, 0, 0, false⟩
  gain := 0
  resolved := false
  silenceTimer := false
  faultUnread := false
  exposureOpen := false
  limitMark := false
  leftActive := false

/-- The Release and Slot Controller after power-on reset with both switch lines open (R172). -/
def Release.reset : Release where
  state := .opened
  halfTaken := false
  fullTaken := false
  halfDebounce := false
  fullDebounce := false
  setup := ⟨.single, 10, false, false, true, true⟩
  sweepOutcome := none
  sweepOwed := false
  lockAwaited := false
  awaitingFocus := false
  lastRefusal := none
  burst := ⟨false, 0, none, false, none, false⟩
  finishingOn := none
  stallTimer := false
  control := ExposureControl.cleared
  steadyTimer := false
  exposureTimer := none
  shutter := false
  expose := false
  slots := Vector.replicate 12 Slot.cleared
  sizeTable := Vector.replicate 4 64
  storeFree := 0
  shotCounter := 0

/-- No hand-off in flight. -/
def Handoffs.empty : Handoffs := ⟨0, [], [], [], [], 0, 0⟩

/-- The part right after power-on reset (R22, R41, R68, R85, R103, R120, R135, R148, R172, R176, R182), with every input
line at rest (log 16). -/
def State.reset : State where
  map := LensMap.reset
  resolver := Resolver.reset
  zoom := AxisRecord.reset .zoom
  focus := AxisRecord.reset .focus
  iris := AxisRecord.reset .iris
  travel := ⟨false, none, none, false, 0⟩
  holdOff := false
  sweep := SweepUnit.reset
  meter := MeterUnit.reset
  exposure := ExposureUnit.reset
  stab := Stabilizer.reset
  release := Release.reset
  link := .free
  standby := false
  entering := false
  sent := []
  pins := ⟨false, false, false, false, false, false, false⟩
  handoffs := Handoffs.empty
  freeCount := 0
  pending := []

end Sys2Proof.Machine
end

