-- ==== Sys2Proof/Machine/Operands.lean ====
section
/-! DEFINITION. The wire forms of R177: how numbers, named choices and marks are written into an answer and read out of a
request's parameters, and the parameters of every request with their ranges. A reader answers `none` exactly where the
request is to be answered BAD_PARAMETER (R177 and the range check of the request's own rule). Logs 5 and 6 name the layouts
that R177 leaves to be inferred. -/

namespace Sys2Proof.Machine

/-! ### Writing items -/

/-- An unsigned item of one byte. -/
def u8 (n : Nat) : Bytes := [BitVec.ofNat 8 n]

/-- An unsigned item of two bytes, low byte first. -/
def u16 (n : Nat) : Bytes := [BitVec.ofNat 8 n, BitVec.ofNat 8 (n / 256)]

/-- An unsigned item of three bytes, low byte first. -/
def u24 (n : Nat) : Bytes := [BitVec.ofNat 8 n, BitVec.ofNat 8 (n / 256), BitVec.ofNat 8 (n / 65536)]

/-- An unsigned item of four bytes, low byte first. -/
def u32 (n : Nat) : Bytes :=
  [BitVec.ofNat 8 n, BitVec.ofNat 8 (n / 256), BitVec.ofNat 8 (n / 65536), BitVec.ofNat 8 (n / 16777216)]

/-- A signed item of one byte, in two's complement. -/
def s8 (i : Int) : Bytes := [BitVec.ofInt 8 i]

/-- A signed item of two bytes. -/
def s16 (i : Int) : Bytes := u16 (BitVec.ofInt 16 i).toNat

/-- A signed item of three bytes. -/
def s24 (i : Int) : Bytes := u24 (BitVec.ofInt 24 i).toNat

/-- A set-or-clear item: 0 for clear, 1 for set. -/
def flag (b : Bool) : Bytes := [if b then 1#8 else 0#8]

/-- An item that may be absent: a presence byte, then the item, or zero bytes of its width. -/
def optional {α : Type} (width : Nat) (write : α → Bytes) : Option α → Bytes
  | none => 0#8 :: List.replicate width 0#8
  | some x => 1#8 :: write x

/-! ### Named choices -/

/-- The value of a result code (R178). -/
def Result.code : Result → Nat
  | .done => 1 | .started => 2 | .queued => 3 | .notFound => 4 | .none => 5 | .unknownRequest => 6
  | .badParameter => 7 | .busy => 8 | .notHomed => 9 | .axisFault => 10 | .uncollected => 11
  | .holdOff => 12 | .outOfLimits => 13 | .noLens => 14 | .pinned => 15 | .duplicateKey => 16
  | .queueFull => 17 | .updatesPending => 18 | .notAwaiting => 19 | .noExposure => 20 | .noSlot => 21
  | .noCapacity => 22 | .notFocused => 23 | .wrongState => 24 | .standby => 25 | .linkError => 26

def RejectionKind.code : RejectionKind → Nat
  | .write => 0 | .install => 1

def MissSource.code : MissSource → Nat
  | .zoomStep => 0 | .context => 1 | .update => 2 | .wake => 3

def AxisState.code : AxisState → Nat
  | .unhomed => 0 | .homing => 1 | .idle => 2 | .waking => 3 | .moving => 4 | .waitMap => 5 | .settling => 6
  | .fault => 7

def Direction.code : Direction → Nat
  | .towardHome => 0 | .awayFromHome => 1

def HoldState.code : HoldState → Nat
  | .energized => 0 | .released => 1

def Mover.code : Mover → Nat
  | .host => 0 | .tracking => 1 | .sweep => 2 | .exposure => 3

def StopPending.code : StopPending → Nat
  | .none => 0 | .stop => 1 | .clear => 2

def Ownership.code : Ownership → Nat
  | .none => 0 | .sweep => 1 | .exposure => 2

/-- The single list of R62. -/
def AxisOutcome.code : AxisOutcome → Nat
  | .homed => 0 | .homeNotFound => 1 | .reached => 2 | .stopped => 3 | .bandForbidden => 4 | .mapMiss => 5
  | .sweepHit => 6 | .sweepMiss => 7 | .sweepOverrun => 8

def SweepState.code : SweepState → Nat
  | .none => 0 | .travelling => 1 | .awaiting => 2 | .returning => 3 | .stopping => 4 | .ended => 5

def SweepOrigin.code : SweepOrigin → Nat
  | .host => 0 | .half => 1

def SweepOutcome.code : SweepOutcome → Nat
  | .hit => 0 | .miss => 1 | .overrun => 2 | .released => 3 | .stopped => 4

def MeterMode.code : MeterMode → Nat
  | .single => 0 | .continuous => 1

def Trigger.code : Trigger → Nat
  | .request => 0 | .frame => 1 | .half => 2

def ZoneStatus.code : ZoneStatus → Nat
  | .none => 0 | .ok => 1 | .over => 2 | .under => 3 | .refFault => 4 | .ref => 5

def Phase.code : Phase → Nat
  | .reference => 0 | .sensor => 1

def ExposureMode.code : ExposureMode → Nat
  | .auto => 0 | .manual => 1

def AeLock.code : AeLock → Nat
  | .none => 0 | .pending => 1 | .held _ _ => 2

def StabState.code : StabState → Nat
  | .off => 0 | .centering => 1 | .active => 2 | .panning => 3 | .held => 4 | .fault => 5

def ReleaseState.code : ReleaseState → Nat
  | .opened => 0 | .preparing => 1 | .ready => 2 | .firing => 3 | .finishing => 4

def SwitchPosition.code : SwitchPosition → Nat
  | .none => 0 | .half => 1 | .full => 2

def ReleaseMode.code : ReleaseMode → Nat
  | .single => 0 | .burst => 1

/-- The list of R151, after its "absent". -/
def HalfSweep.code : HalfSweep → Nat
  | .running => 0 | .afSkipped => 1 | .ended .hit => 2 | .ended .miss => 3 | .ended .overrun => 4
  | .ended .released => 5 | .ended .stopped => 6

def EndReason.code : EndReason → Nat
  | .limit => 0 | .released => 1 | .stalled => 2 | .storeFull => 3 | .cleared => 4 | .notFocused => 5
  | .wrongState => 6 | .noLens => 7 | .busy => 8 | .notHomed => 9 | .noExposure => 10 | .noSlot => 11

def Steady.code : Steady → Nat
  | .met => 0 | .waiting => 1 | .expired => 2

def SlotState.code : SlotState → Nat
  | .free => 0 | .armed => 1 | .exposing => 2 | .exposed => 3 | .developed => 4

def ShotOrigin.code : ShotOrigin → Nat
  | .switch => 0 | .shoot => 1

/-! ### Reading items -/

/-- A set-or-clear byte; any other value is none. -/
def flag? (b : Byte) : Option Bool :=
  if b = 0#8 then some false else if b = 1#8 then some true else none

/-- Two bytes, low byte first. -/
def nat16 (b0 b1 : Byte) : Nat := b0.toNat + 256 * b1.toNat

/-- Three bytes, low byte first. -/
def nat24 (b0 b1 b2 : Byte) : Nat := b0.toNat + 256 * b1.toNat + 65536 * b2.toNat

/-- Two bytes as a signed number. -/
def int16 (b0 b1 : Byte) : Int := (BitVec.ofNat 16 (nat16 b0 b1)).toInt

/-- A number below n. -/
def fin? (n k : Nat) : Option (Fin n) := if h : k < n then some ⟨k, h⟩ else none

/-- An axis, as a named choice (R44, R177). -/
def axis? (b : Byte) : Option AxisId :=
  if b = 0#8 then some .zoom else if b = 1#8 then some .focus else if b = 2#8 then some .iris else none

/-- The largest position of an axis (00 §4.1). -/
def lastPosition : AxisId → Nat
  | .zoom => 1599 | .focus => 4095 | .iris => 63

/-- The home limit of an axis (R45). -/
def homeLimit : AxisId → Nat
  | .zoom => 1760 | .focus => 4500 | .iris => 70

/-- A position of an axis in the fewest bytes that hold the axis's own range (R177; log 5). -/
def positionBytes (a : AxisId) (n : Nat) : Bytes :=
  match a with
  | .iris => u8 n
  | .zoom | .focus => u16 n

/-- The width of a position item of an axis. -/
def positionWidth : AxisId → Nat
  | .iris => 1
  | .zoom | .focus => 2

/-- A reading in which every part must be sound. -/
def when {α : Type} (c : Bool) (x : α) : Option α := if c then some x else none

/-! ### Parameters of the requests -/

/-- No parameters. -/
def noParams (p : Bytes) : Option Unit := when p.isEmpty ()

/-- One number below n in one byte. -/
def finParam (n : Nat) (p : Bytes) : Option (Fin n) :=
  match p with
  | [b] => fin? n b.toNat
  | _ => none

/-- One on-or-off byte. -/
def flagParam (p : Bytes) : Option Bool :=
  match p with
  | [b] => flag? b
  | _ => none

/-- One axis. -/
def axisParam (p : Bytes) : Option AxisId :=
  match p with
  | [b] => axis? b
  | _ => none

/-- Every field of the entry lies in the range of R1 and the far limit is not greater than the near limit (R8). -/
def Entry.inRange (e : Entry) : Bool :=
  decide (e.context ≤ 15 ∧ e.band ≤ 63 ∧ -2000 ≤ e.offset ∧ e.offset ≤ 2000 ∧ e.far ≤ 4095 ∧ e.near ≤ 4095 ∧
    e.widestIris ≤ 63 ∧ e.loss ≤ 64 ∧ e.gain ≤ 255 ∧ e.far ≤ e.near)

/-- The fourteen bytes of a lens map entry, in the field order of R1. -/
def Entry.bytes (e : Entry) : Bytes :=
  u8 e.context ++ u8 e.band ++ flag e.global ++ flag e.valid ++ flag e.drivePermit ++ s16 e.offset ++
    u16 e.far ++ u16 e.near ++ u8 e.widestIris ++ u8 e.loss ++ u8 e.gain

/-- The parameter of MAP_INSTALL: an entry (R8). -/
def entryParam (p : Bytes) : Option Entry :=
  match p with
  | [c, b, g, v, d, o0, o1, f0, f1, n0, n1, w, l, k] => do
    let g ← flag? g
    let v ← flag? v
    let d ← flag? d
    let e : Entry := ⟨c.toNat, b.toNat, g, v, d, int16 o0 o1, nat16 f0 f1, nat16 n0 n1, w.toNat, l.toNat, k.toNat⟩
    when e.inRange e
  | _ => none

/-- The parameters of MAP_WRITE: an index and an entry (R8). -/
def writeParams (p : Bytes) : Option (Fin 32 × Entry) :=
  match p with
  | i :: rest => do
    let i ← fin? 32 i.toNat
    let e ← entryParam rest
    some (i, e)
  | [] => none

/-- The parameters of MAP_PROBE: a pair (R8). -/
def probeParams (p : Bytes) : Option Pair :=
  match p with
  | [c, b] => when (decide (c.toNat ≤ 15 ∧ b.toNat ≤ 63)) ⟨c.toNat, b.toNat⟩
  | _ => none

/-- The parameters of AXIS_MOVE: an axis, and a target in the bytes and the range of that axis (R54, log 5). -/
def moveParams (p : Bytes) : Option (AxisId × Nat) :=
  match p with
  | [a, t] => do
    let a ← axis? a
    when (decide (a = .iris ∧ t.toNat ≤ lastPosition a)) (a, t.toNat)
  | [a, t0, t1] => do
    let a ← axis? a
    when (decide (a ≠ .iris ∧ nat16 t0 t1 ≤ lastPosition a)) (a, nat16 t0 t1)
  | _ => none

/-- Every field of the profile lies in the range of R45. -/
def Profile.inRange (r : Profile) : Bool :=
  decide (200 ≤ r.stepInterval ∧ r.stepInterval ≤ 20000 ∧ r.settle ≤ 255 ∧ r.holdRelease ≤ 5000 ∧ 1 ≤ r.wake ∧
    r.wake ≤ 50 ∧ r.backlash ≤ 63)

/-- The parameters of AXIS_PROFILE (R66). -/
def profileParams (p : Bytes) : Option (AxisId × Profile) :=
  match p with
  | [a, i0, i1, s, h0, h1, w, b] => do
    let a ← axis? a
    let r : Profile := ⟨nat16 i0 i1, s.toNat, nat16 h0 h1, w.toNat, b.toNat⟩
    when r.inRange (a, r)
  | _ => none

/-- A condition with its threshold or margin (R177, R89). -/
def condition? (c v0 v1 : Byte) : Option SweepCondition :=
  if c = 0#8 then some (.reach (nat16 v0 v1))
  else if c = 1#8 then when (decide (1 ≤ nat16 v0 v1)) (.peak (nat16 v0 v1))
  else none

/-- The parameters of SWEEP_START and SWEEP_PRESET: check 1 of R89. -/
def sweepParams (p : Bytes) : Option SweepParams :=
  match p with
  | [s0, s1, e0, e1, d, c, v0, v1] => do
    let c ← condition? c v0 v1
    when (decide (nat16 s0 s1 ≤ 4095 ∧ nat16 e0 e1 ≤ 4095 ∧ 1 ≤ d.toNat ∧ d.toNat ≤ 64))
      ⟨nat16 s0 s1, nat16 e0 e1, d.toNat, c⟩
  | _ => none

/-- The parameter of SWEEP_CONTRAST (R94). -/
def contrastParam (p : Bytes) : Option Nat :=
  match p with
  | [v0, v1] => some (nat16 v0 v1)
  | _ => none

/-- A metering mode (R105). -/
def meterMode? (b : Byte) : Option MeterMode :=
  if b = 0#8 then some .single else if b = 1#8 then some .continuous else none

/-- A metering trigger (R105). -/
def trigger? (b : Byte) : Option Trigger :=
  if b = 0#8 then some .request else if b = 1#8 then some .frame else if b = 2#8 then some .half else none

/-- The parameters of METER_SETUP: check 1 of R105. -/
def meterParams (p : Bytes) : Option MeterSetup :=
  match p with
  | [f, l, m, t, r0, r1, n] => do
    let f ← fin? 8 f.toNat
    let l ← fin? 8 l.toNat
    let m ← meterMode? m
    let t ← trigger? t
    let n ← flag? n
    when (decide (f ≤ l ∧ 256 ≤ nat16 r0 r1)) ⟨f, l, m, t, nat16 r0 r1, n⟩
  | _ => none

/-- Settings in the ranges of R122 and R128. -/
def Settings.inRange (g : Settings) : Bool :=
  decide (20 ≤ g.time ∧ g.time ≤ 8000000 ∧ g.iris ≤ 63 ∧ g.gain ≤ 96)

/-- An exposure mode (R122). -/
def exposureMode? (b : Byte) : Option ExposureMode :=
  if b = 0#8 then some .auto else if b = 1#8 then some .manual else none

/-- The parameters of EXPOSURE_SETUP (R125). -/
def exposureParams (p : Bytes) : Option ExposureSetup :=
  match p with
  | [w0, w1, w2, w3, w4, w5, w6, w7, c, m, t0, t1, t2, i, g] => do
    let m ← exposureMode? m
    let w : Vector Nat 8 :=
      #v[w0.toNat, w1.toNat, w2.toNat, w3.toNat, w4.toNat, w5.toNat, w6.toNat, w7.toNat]
    let s : Settings := ⟨nat24 t0 t1 t2, i.toNat, g.toNat⟩
    when (w.toList.all (fun n => decide (n ≤ 15)) && decide (-48 ≤ c.toInt ∧ c.toInt ≤ 48) && s.inRange)
      ⟨w, c.toInt, m, s⟩
  | _ => none

/-- A point's fields lie in the ranges of R128. -/
def Point.inRange (q : Point) : Bool := decide (-64 ≤ q.evFrom ∧ q.evFrom ≤ 511) && q.settings.inRange

/-- The points of a part, seven bytes to a point; none when the length gives no whole number of points (R177). -/
def points? : Bytes → Option (List Point)
  | [] => some []
  | e0 :: e1 :: t0 :: t1 :: t2 :: i :: g :: rest =>
    (points? rest).map (⟨int16 e0 e1, nat24 t0 t1 t2, i.toNat, g.toNat⟩ :: ·)
  | _ => none

/-- The layout of a part of a program (R177). -/
def programParams (p : Bytes) : Option ProgramPart :=
  match p with
  | t :: f :: rest => (points? rest).map fun q => ⟨t.toNat, f.toNat, q⟩
  | _ => none

/-- The parameters of STAB_SETUP (R146). -/
def stabParams (p : Bytes) : Option (Bool × Nat) :=
  match p with
  | [e, t0, t1] => do
    let e ← flag? e
    when (decide (nat16 t0 t1 ≤ 32767)) (e, nat16 t0 t1)
  | _ => none

/-- A release mode (R170). -/
def releaseMode? (b : Byte) : Option ReleaseMode :=
  if b = 0#8 then some .single else if b = 1#8 then some .burst else none

/-- The parameters of RELEASE_SETUP (R170). -/
def releaseParams (p : Bytes) : Option ReleaseSetup :=
  match p with
  | [m, l, fp, af, ae, sw] => do
    let m ← releaseMode? m
    let fp ← flag? fp
    let af ← flag? af
    let ae ← flag? ae
    let sw ← flag? sw
    when (decide (1 ≤ l.toNat ∧ l.toNat ≤ 99)) ⟨m, l.toNat, fp, af, ae, sw⟩
  | _ => none

/-- The parameters of SLOT_DEVELOPED: a slot and a size (R165). -/
def developedParams (p : Bytes) : Option (Fin 12 × Nat) :=
  match p with
  | [i, s0, s1, s2] => do
    let i ← fin? 12 i.toNat
    when (decide (1 ≤ nat24 s0 s1 s2)) (i, nat24 s0 s1 s2)
  | _ => none

/-- The parameter of STORE_CAPACITY (R164). -/
def capacityParam (p : Bytes) : Option Nat :=
  match p with
  | [b0, b1, b2] => some (nat24 b0 b1 b2)
  | _ => none

/-- The parameters of SIZE_TABLE_WRITE: four rows (R170). -/
def sizeParams (p : Bytes) : Option (Vector Nat 4) :=
  match p with
  | [a0, a1, b0, b1, c0, c1, d0, d1] => some #v[nat16 a0 a1, nat16 b0 b1, nat16 c0 c1, nat16 d0 d1]
  | _ => none

/-- The parameter of STANDBY (R181). -/
def scopeParam (p : Bytes) : Option StandbyScope :=
  match p with
  | [b] => if b = 0#8 then some .all else if b = 1#8 then some .locked else if b = 2#8 then some .none else none
  | _ => none

end Sys2Proof.Machine
end

