-- ==== Sys2Proof/Machine/Flags.lean ====
section
/-! DEFINITION. What is computed from the state and not held: the optic context, the pin count, the switch position, the held
sum, the lines RDY and ATTN, and the attention sources that STATUS lists (R25, R36, R151, R176, R179). -/

namespace Sys2Proof.Machine

/-- The optic context: four times the shooting mode plus the accessory code in force (R25). -/
def Resolver.context (r : Resolver) : Nat := 4 * r.mode + r.accessory

/-- The number of pin places held (R36). -/
def Resolver.pinCount (r : Resolver) : Nat := r.slotPin.toNat + r.sweepPin.toNat

/-- Whether the active lens record is pinned (R18, R37). -/
def Resolver.pinned (r : Resolver) : Bool := r.slotPin || r.sweepPin

/-- The band of a zoom position (00 §4.3). -/
def bandOf (position : Nat) : Nat := position / Config.bandWidth

/-- A sweep runs while it travels, awaits, returns or stops (R87). -/
def SweepState.runs : SweepState → Bool
  | .travelling | .awaiting | .returning | .stopping => true
  | .none | .ended => false

/-- An axis that is homed has a position (R44). -/
def AxisState.homed : AxisState → Bool
  | .idle | .waking | .moving | .waitMap | .settling => true
  | .unhomed | .homing | .fault => false

/-- An axis at rest with nothing under way: the states that AXIS_PROFILE and STANDBY ask for (R66, R181). -/
def AxisState.resting : AxisState → Bool
  | .unhomed | .idle | .fault => true
  | .homing | .waking | .moving | .waitMap | .settling => false

/-- An axis in travel (R83). -/
def AxisState.inTravel : AxisState → Bool
  | .waking | .moving | .waitMap => true
  | .unhomed | .homing | .idle | .settling | .fault => false

/-- A slot whose picture is being made (R157). -/
def SlotState.active : SlotState → Bool
  | .armed | .exposing => true
  | .free | .exposed | .developed => false

/-- The switch position of two taken levels (R151). -/
def Release.position (r : Release) : SwitchPosition :=
  if r.fullTaken then .full else if r.halfTaken then .half else .none

/-- What a slot adds to the held sum: its reservation, or its actual size (R151). -/
def Slot.held (t : Slot) : Nat :=
  match t.state with
  | .free => 0
  | .armed | .exposing | .exposed => t.reservation.getD 0
  | .developed => t.size.getD 0

/-- The held sum (R151). -/
def Release.heldSum (r : Release) : Nat := (r.slots.toList.map Slot.held).sum

/-- Some slot is ARMED or EXPOSING (R157, check 6). -/
def Release.anyActive (r : Release) : Bool := r.slots.toList.any fun t => t.state.active

/-- Every slot is FREE (R181). -/
def Release.allFree (r : Release) : Bool := r.slots.toList.all fun t => decide (t.state = .free)

/-- The lowest-numbered FREE slot (R158). -/
def Release.firstFree (r : Release) : Option (Fin 12) :=
  (List.finRange 12).find? fun i => decide (r.slots[i].state = .free)

/-- The attention sources in the order in which STATUS sends them (10 §10.4, R179). -/
def attentionSources (s : State) : List Bool :=
  [s.zoom.completion.pending, s.focus.completion.pending, s.iris.completion.pending, s.map.rejectionUnread,
    s.resolver.missUnread, s.sweep.record.awaiting, s.meter.notice, s.stab.faultUnread] ++
  s.release.slots.toList.map (fun t => t.notice) ++ [s.release.burst.notice]

/-- ATTN is high while any source is pending (R179). -/
def attn (s : State) : Bool := (attentionSources s).any id

/-- RDY is high while an answer waits to be read (R176). -/
def rdy (s : State) : Bool :=
  match s.link with
  | .answering _ _ => true
  | .free | .working _ _ => false

end Sys2Proof.Machine
end

