-- ==== Sys2Proof/Machine/Ops.lean ====
section
/-! DEFINITION. The named operations every family uses: the records of the state and their updates, hand-offs between
blocks, answers and the link's handling of a request, and the lens map as a table. -/

namespace Sys2Proof.Machine

/-- What a command answers. -/
abbrev Out := Host.Outcome State Fault Refusal

/-! ### Updating one record of the state -/

def State.setMap (s : State) (m : LensMap) : State := { s with map := m }
def State.setResolver (s : State) (r : Resolver) : State := { s with resolver := r }
def State.setTravel (s : State) (t : ZoomTravel) : State := { s with travel := t }
def State.setHoldOff (s : State) (b : Bool) : State := { s with holdOff := b }
def State.setSweep (s : State) (w : SweepUnit) : State := { s with sweep := w }
def State.setMeter (s : State) (m : MeterUnit) : State := { s with meter := m }
def State.setExposure (s : State) (e : ExposureUnit) : State := { s with exposure := e }
def State.setStab (s : State) (t : Stabilizer) : State := { s with stab := t }
def State.setRelease (s : State) (r : Release) : State := { s with release := r }
def State.setLink (s : State) (l : LinkState) : State := { s with link := l }
def State.setStandby (s : State) (b : Bool) : State := { s with standby := b }
def State.setEntering (s : State) (b : Bool) : State := { s with entering := b }
def State.setSent (s : State) (b : Bytes) : State := { s with sent := b }
def State.setPins (s : State) (p : Pins) : State := { s with pins := p }
def State.setHandoffs (s : State) (h : Handoffs) : State := { s with handoffs := h }
def State.setFreeCount (s : State) (n : Nat) : State := { s with freeCount := n }
def State.setPending (s : State) (q : List Instr) : State := { s with pending := q }

/-- The record of an axis (R44). -/
def State.axis (s : State) : AxisId → AxisRecord
  | .zoom => s.zoom
  | .focus => s.focus
  | .iris => s.iris

/-- Replaces the record of an axis. -/
def State.setAxis (s : State) (a : AxisId) (r : AxisRecord) : State :=
  match a with
  | .zoom => { s with zoom := r }
  | .focus => { s with focus := r }
  | .iris => { s with iris := r }

/-- Replaces one place of a table. -/
def put {α : Type} {n : Nat} (v : Vector α n) (i : Fin n) (x : α) : Vector α n := v.set i.val x i.isLt

/-- Changes every place of a table alike. -/
def mapTable {α β : Type} {n : Nat} (f : α → β) (v : Vector α n) : Vector β n :=
  ⟨⟨v.toList.map f⟩, by simp⟩

/-- A number brought within two bounds: below the lower becomes the lower, above the upper the upper. -/
def clampInt (low high x : Int) : Int := if x < low then low else if high < x then high else x

/-! ### Hand-offs between blocks (log 1) -/

def State.postDrain (s : State) : State :=
  s.setHandoffs { s.handoffs with drains := s.handoffs.drains + 1 }
def State.postReports (s : State) (r : List Report) : State :=
  s.setHandoffs { s.handoffs with reports := s.handoffs.reports ++ r }
def State.postLoad (s : State) (l : TrackLoad) : State :=
  s.setHandoffs { s.handoffs with loads := s.handoffs.loads ++ [l] }
def State.postStab (s : State) (n : StabNotice) : State :=
  s.setHandoffs { s.handoffs with stab := s.handoffs.stab ++ [n] }
def State.postScene (s : State) (z : Vector ZoneResult 8) : State :=
  s.setHandoffs { s.handoffs with scenes := s.handoffs.scenes ++ [z] }
def State.postSteady (s : State) : State :=
  s.setHandoffs { s.handoffs with steady := s.handoffs.steady + 1 }
def State.postPin (s : State) : State :=
  s.setHandoffs { s.handoffs with pins := s.handoffs.pins + 1 }

/-! ### Answers and requests (R175, R176, R177) -/

/-- An answer without data. -/
def plain (r : Result) : Answer := ⟨r, []⟩

/-- DONE with data. -/
def done (data : Bytes) : Answer := ⟨.done, data⟩

/-- The result byte: the code, plus 128 with the LOST mark (R175). -/
def resultByte (r : Result) (lost : Bool) : Byte := BitVec.ofNat 8 (r.code + if lost then 128 else 0)

/-- The answer frame: result byte, data length, data, check byte (R175). -/
def answerFrame (a : Answer) (lost : Bool) : Bytes :=
  let body := resultByte a.result lost :: BitVec.ofNat 8 a.data.length :: a.data
  body ++ [checkByte body]

/-- A frame dropped in WORKING or ANSWERING leaves the LOST mark; in FREE nothing is dropped (R176). -/
def dropFrame (s : State) : State :=
  match s.link with
  | .free => s
  | .working a _ => s.setLink (.working a true)
  | .answering a _ => s.setLink (.answering a true)

/-- A request transaction with a sound frame ends (R175, R176): in FREE it is answered STANDBY in standby, unless it is one of
the requests of R182, and is otherwise taken and carried out by its owner, whose answer the link then waits to place; in
WORKING and ANSWERING the frame is dropped. -/
def request (inStandby : Bool) (owner : State → State × Answer) (s : State) : Out :=
  match s.link with
  | .free =>
    if s.standby && !inStandby then .next (s.setLink (.answering (plain .standby) false))
    else
      let r := owner s
      .next (r.1.setLink (.working r.2 false))
  | _ => .next (dropFrame s)

/-- The owner of a request reads its parameters first; a reading that fails is BAD_PARAMETER with no effect (R177, R8). -/
def withParams {α : Type} (read : Bytes → Option α) (p : Bytes) (owner : α → State → State × Answer)
    (s : State) : State × Answer :=
  match read p with
  | none => (s, plain .badParameter)
  | some x => owner x s

/-! ### The lens map as a table (01) -/

/-- An entry matches a pair (R2). -/
def Entry.matchesPair (e : Entry) (q : Pair) : Bool :=
  e.valid && decide (e.band = q.band) && (e.global || decide (e.context = q.context))

/-- Two entries conflict (R2). -/
def Entry.conflicts (e f : Entry) : Bool :=
  e.valid && f.valid && decide (e.band = f.band) && (decide (e.context = f.context) || e.global || f.global)

/-- The lowest index of the map that meets a test. -/
def LensMap.find (m : LensMap) (test : Fin 32 → Entry → Bool) : Option (Fin 32) :=
  (List.finRange 32).find? fun i => test i m.entries[i]

/-- The answer of a lookup (R3): the index of the entry that matches the pair. -/
def LensMap.lookup (m : LensMap) (q : Pair) : Option (Fin 32) := m.find fun _ e => e.matchesPair q

/-- The duplicate check of a write: the lowest conflicting index other than the written one (R4). -/
def LensMap.writeConflict (m : LensMap) (i : Fin 32) (e : Entry) : Option (Fin 32) :=
  m.find fun j f => decide (j ≠ i) && e.conflicts f

/-- The duplicate check of an install: the lowest conflicting index (R4). -/
def LensMap.installConflict (m : LensMap) (e : Entry) : Option (Fin 32) :=
  m.find fun _ f => ({ e with valid := true } : Entry).conflicts f

/-- The lowest invalid place at or above the lock count (R6, step 1). -/
def LensMap.freePlace (m : LensMap) : Option (Fin 32) :=
  m.find fun j f => decide (m.lockCount ≤ j.val) && !f.valid

/-- The place an install is written to (R6). -/
def LensMap.choosePlace (m : LensMap) : Fin 32 := m.freePlace.getD m.cursor

/-- The cursor one place down, or at 31 from the lock count (R7). -/
def LensMap.cursorDown (m : LensMap) : Fin 32 :=
  if m.cursor.val = m.lockCount then 31 else ⟨m.cursor.val - 1, by omega⟩

/-- The cursor after an install (R7). -/
def LensMap.nextCursor (m : LensMap) : Fin 32 :=
  match m.freePlace with
  | some _ => m.cursor
  | none => m.cursorDown

/-- An entry with its valid flag cleared and its other fields kept (R13). -/
def Entry.retired (e : Entry) : Entry := { e with valid := false }

/-- An entry that MAP_PURGE retires (R14). -/
def Entry.purgedBy (e : Entry) (context : Nat) : Bool := e.valid && !e.global && decide (e.context = context)

/-- The indexes a purge retires, in order (R14, R21). -/
def LensMap.purgeList (m : LensMap) (context : Nat) : List (Fin 32) :=
  (List.finRange 32).filter fun i => (m.entries[i]).purgedBy context

/-- What applying an update comes to: the map after it, the report, and the data of its DONE answer; or the lowest
conflicting index. -/
def LensMap.apply (m : LensMap) (u : Update) : Except (Fin 32) (LensMap × Report × Bytes) :=
  match u with
  | .write i e =>
    match m.writeConflict i e with
    | some j => .error j
    | none => .ok ({ m with entries := put m.entries i e }, [(i, e.valid)], [])
  | .install e =>
    match m.installConflict e with
    | some j => .error j
    | none =>
      let i := m.choosePlace
      .ok ({ m with entries := put m.entries i { e with valid := true }, cursor := m.nextCursor,
                    lastInstall := some i }, [(i, true)], u8 i.val)
  | .retire i =>
    if (m.entries[i]).valid then .ok ({ m with entries := put m.entries i (m.entries[i]).retired }, [(i, false)], [])
    else .ok (m, [], [])
  | .purge c =>
    let l := m.purgeList c
    .ok ({ m with entries := mapTable (fun e => if e.purgedBy c then e.retired else e) m.entries },
      l.map (fun i => (i, false)), u8 l.length)

/-- An update that touches the pinned entry (R18). -/
def LensMap.touches (m : LensMap) (r : LensRecord) (u : Update) : Bool :=
  let matchesRecord (e : Entry) : Bool := match r.pair with
    | some q => e.matchesPair q
    | none => false
  match u with
  | .write i e => decide (r.source = some i) || matchesRecord e
  | .install e => decide (r.source = some m.choosePlace) || matchesRecord { e with valid := true }
  | .retire i => decide (r.source = some i)
  | .purge c =>
    match r.source with
    | some j => decide ((m.entries[j]).context = c) && !(m.entries[j]).global
    | none => false

/-- Whether an update is held against the pinned entry (R18). -/
def LensMap.holds (m : LensMap) (r : Resolver) (u : Update) : Bool := r.pinned && m.touches r.record u

/-- The head-blocked item of MAP_STATUS (R16, R19). That it is the test of R18 as the head and the pins now stand, so that it is
clear from an unpin on and not only from the drain that follows, is the model's choice (log 35). -/
def State.headBlocked (s : State) : Bool :=
  match s.map.queue with
  | [] => false
  | u :: _ => s.map.holds s.resolver u

/-- The account of a queued update that failed its duplicate check (R20). -/
def rejectionOf (u : Update) (conflicting : Fin 32) : Rejection :=
  match u with
  | .write i _ => ⟨.write, some i, none, .duplicateKey, conflicting⟩
  | .install e => ⟨.install, none, some ⟨e.context, e.band, e.global⟩, .duplicateKey, conflicting⟩
  | .retire i => ⟨.write, some i, none, .duplicateKey, conflicting⟩
  | .purge _ => ⟨.write, none, none, .duplicateKey, conflicting⟩

/-- A report that changed nothing is not made (R21). -/
def reportOf (r : Report) : List Report := if r.isEmpty then [] else [r]

/-- One examination of the head (R19): nothing when the queue is empty or the head is held; otherwise the head is removed and
applied, or dropped into the rejection record (R20), and the map after it goes with the report of what changed (R21). -/
def LensMap.examineHead (m : LensMap) (resolver : Resolver) : Option (LensMap × Report) :=
  match m.queue with
  | [] => none
  | u :: rest =>
    if m.holds resolver u then none
    else
      match m.apply u with
      | .ok (m', r, _) => some ({ m' with queue := rest }, r)
      | .error j => some ({ m with queue := rest, rejection := some (rejectionOf u j), rejectionUnread := true }, [])

/-- An update whose parameters have passed is taken (R17). -/
def takeUpdate (u : Update) (s : State) : State × Answer :=
  if s.map.queue = [] then
    if s.map.holds s.resolver u then
      (s.setMap { s.map with queue := [u] }, ⟨.queued, u8 1⟩)
    else
      match s.map.apply u with
      | .ok (m, r, data) => ((s.setMap m).postReports (reportOf r), done data)
      | .error j => (s, ⟨.duplicateKey, u8 j.val⟩)
  else if Config.queueLimit ≤ s.map.queue.length then (s, plain .queueFull)
  else (s.setMap { s.map with queue := s.map.queue ++ [u] }, ⟨.queued, u8 (s.map.queue.length + 1)⟩)

end Sys2Proof.Machine
end

