-- ==== Sys2Proof/Machine/Answers.lean ====
section
/-! DEFINITION. The data of the answers that read a block's state, item by item in the order of the rule that names them
(R177). An item that its rule allows to be absent carries a presence byte (log 6); a position takes the bytes of its own
axis (log 5). -/

namespace Sys2Proof.Machine

/-- A key (R20): context, band and global flag. -/
def Key.bytes (k : Key) : Bytes := u8 k.context ++ u8 k.band ++ flag k.global

/-- The rejection record (R20): nine bytes. -/
def Rejection.bytes (r : Rejection) : Bytes :=
  u8 r.kind.code ++ optional 1 (fun i : Fin 32 => u8 i.val) r.index ++ optional 3 Key.bytes r.key ++
    u8 r.reason.code ++ u8 r.conflicting.val

/-- The miss record (R32): three bytes. -/
def Miss.bytes (m : Miss) : Bytes := u8 m.context ++ u8 m.band ++ u8 m.source.code

/-- The data of MAP_STATUS (R16). -/
def State.mapStatusData (s : State) : Bytes :=
  u8 s.map.queue.length ++ flag s.headBlocked ++ u8 s.map.lockCount ++ u8 s.map.cursor.val ++
    optional 1 (fun i : Fin 32 => u8 i.val) s.map.lastInstall ++ optional 9 Rejection.bytes s.map.rejection ++
    flag s.map.rejectionUnread ++ optional 3 Miss.bytes s.resolver.miss

/-- The copied fields of the record (R29): thirteen bytes. -/
def LensFacts.bytes (f : LensFacts) : Bytes :=
  u8 f.context ++ u8 f.band ++ flag f.global ++ flag f.drivePermit ++ s16 f.offset ++ u16 f.far ++ u16 f.near ++
    u8 f.widestIris ++ u8 f.loss ++ u8 f.gain

/-- A pair (R29). -/
def Pair.bytes (q : Pair) : Bytes := u8 q.context ++ u8 q.band

/-- The data of READ_LENS (R40). -/
def Resolver.bytes (r : Resolver) : Bytes :=
  flag r.record.resolved ++ r.record.facts.bytes ++ optional 1 (fun i : Fin 32 => u8 i.val) r.record.source ++
    optional 2 Pair.bytes r.record.pair ++ u8 r.context ++ u8 r.mode ++ u8 r.accessory ++ optional 1 u8 r.pendingCode ++
    u8 r.pinCount ++ flag r.slotPin ++ flag r.sweepPin ++ optional 3 Miss.bytes r.miss ++ flag r.missUnread

/-- A profile (R45), in the field order of R66. -/
def Profile.bytes (r : Profile) : Bytes :=
  u16 r.stepInterval ++ u8 r.settle ++ u16 r.holdRelease ++ u8 r.wake ++ u8 r.backlash

/-- The sweep summary (R101): seventeen bytes. -/
def SweepSummary.bytes (w : SweepSummary) : Bytes :=
  u16 w.stopsPlanned ++ u16 w.stopNumber ++ u16 w.stopsJudged ++ u16 w.skipped ++ optional 2 u16 w.bestValue ++
    optional 2 u16 w.bestPosition ++ optional 2 u16 w.lastValue

/-- The final position and the sweep summary of a completion (R62). -/
def Completion.endBytes (c : Completion) (a : AxisId) : Bytes :=
  optional (positionWidth a) (positionBytes a) c.finalPosition ++ optional 17 SweepSummary.bytes c.summary

/-- The data of AXIS_COLLECT (R64); a pending completion has an outcome. -/
def Completion.collectData (c : Completion) (a : AxisId) : Bytes :=
  u8 ((c.outcome.map AxisOutcome.code).getD 0) ++ c.endBytes a

/-- The completion record as AXIS_READ carries it (R65). -/
def Completion.bytes (c : Completion) (a : AxisId) : Bytes :=
  flag c.pending ++ optional 1 (fun o : AxisOutcome => u8 o.code) c.outcome ++ c.endBytes a

/-- The data of AXIS_READ (R65). -/
def State.axisData (s : State) (a : AxisId) : Bytes :=
  let r := s.axis a
  u8 r.state.code ++ optional (positionWidth a) (positionBytes a) r.position ++
    optional (positionWidth a) (positionBytes a) r.target ++ u8 r.lastDirection.code ++ u8 r.backlashRemaining ++
    u8 r.hold.code ++ optional 1 (fun m : Mover => u8 m.code) r.mover ++ u8 r.stopPending.code ++
    positionBytes a r.homingCount ++ u8 r.ownership.code ++ r.profile.bytes ++ positionBytes a (homeLimit a) ++
    flag s.holdOff ++ r.completion.bytes a ++
    (match a with
     | .zoom => flag s.travel.refillTimer ++ optional 1 u8 s.travel.bandWaited
     | .focus | .iris => [])

/-- A condition and its value (R177). -/
def SweepCondition.bytes : SweepCondition → Bytes
  | .reach v => u8 0 ++ u16 v
  | .peak v => u8 1 ++ u16 v

/-- The parameters of a sweep, in the order of R89. -/
def SweepParams.bytes (p : SweepParams) : Bytes := u16 p.start ++ u16 p.last ++ u8 p.stride ++ p.condition.bytes

/-- The data of SWEEP_READ (R102). -/
def SweepRecord.bytes (w : SweepRecord) : Bytes :=
  u8 w.state.code ++ u8 w.origin.code ++ w.params.bytes ++ u16 w.stopsPlanned ++ optional 2 u16 w.stopNumber ++
    optional 2 u16 w.stopPosition ++ flag w.awaiting ++ flag w.releasePending ++ u16 w.stopsJudged ++
    optional 2 u16 w.lastValue ++ optional 2 u16 (w.best.map fun b => b.value) ++
    optional 2 u16 (w.best.map fun b => b.position) ++ optional 2 u16 (w.best.map fun b => b.stop) ++
    u16 w.skipped ++ optional 1 (fun o : SweepOutcome => u8 o.code) w.outcome

/-- The value of a judgment, in the order of R94. -/
def Judgment.code : Judgment → Nat
  | .nextStop => 0 | .hit => 1 | .miss => 2 | .released => 3

/-- A zone record (R108). -/
def ZoneRecord.bytes (z : ZoneRecord) : Bytes :=
  u8 z.result.status.code ++ optional 3 u24 z.result.value ++ flag z.fresh ++ flag z.overwritten

/-- The metering setup, in the order of R105. -/
def MeterSetup.bytes (u : MeterSetup) : Bytes :=
  u8 u.first.val ++ u8 u.last.val ++ u8 u.mode.code ++ u8 u.trigger.code ++ u16 u.target ++ flag u.notify

/-- The data of METER_READ (R115). -/
def MeterUnit.bytes (m : MeterUnit) : Bytes :=
  m.zones.toList.flatMap ZoneRecord.bytes ++ flag m.enabled ++ m.setup.bytes ++ flag m.reference ++ flag m.running ++
    optional 2 (fun w : Working => u8 w.first.val ++ u8 w.last.val) m.working ++
    optional 1 (fun w : Working => u8 w.mode.code) m.working ++ optional 2 (fun w : Working => u16 w.target) m.working ++
    optional 1 (fun z : Fin 8 => u8 z.val) m.zone ++ optional 1 (fun p : Phase => u8 p.code) m.phase ++ flag m.notice

/-- Settings (R122): time, iris, gain. -/
def Settings.bytes (g : Settings) : Bytes := u24 g.time ++ u8 g.iris ++ u8 g.gain

/-- The scene record (R122). -/
def Scene.bytes (c : Scene) : Bytes :=
  flag c.figures.isSome ++ optional 2 u16 (c.figures.map fun f => f.b) ++ optional 1 u8 (c.figures.map fun f => f.loss) ++
    optional 2 s16 (c.figures.map fun f => f.ev) ++ flag c.uncorrected ++ u16 c.sweepCount

/-- The locked EV, when HELD (R126). -/
def AeLock.ev : AeLock → Option Int
  | .held ev _ => some ev
  | .none | .pending => Option.none

/-- The locked UNCORRECTED mark, when HELD (R126). -/
def AeLock.uncorrected : AeLock → Option Bool
  | .held _ u => some u
  | .none | .pending => Option.none

/-- The data of AE_LOCK (R126). -/
def AeLock.bytes (l : AeLock) : Bytes := u8 l.code ++ optional 2 s16 l.ev

/-- UNDEREXPOSED, with its deficit when set (R133, R163). -/
def deficitBytes (d : Option Nat) : Bytes := flag d.isSome ++ optional 1 u8 d

/-- The last solution (R133): nineteen bytes. -/
def Solution.bytes (x : Solution) : Bytes :=
  x.solved.bytes ++ optional 2 s16 x.ev ++ u8 x.mode.code ++ optional 1 u8 x.point ++ u8 x.chosenIris ++
    u8 x.chosenGain ++ u8 x.widestIris ++ flag x.locked ++ flag x.uncorrected ++ deficitBytes x.deficit

/-- The exposure setup, in the order of R125. -/
def ExposureSetup.bytes (u : ExposureSetup) : Bytes :=
  u.weights.toList.flatMap u8 ++ s8 u.compensation ++ u8 u.mode.code ++ u.manual.bytes

/-- The data of EXPOSURE_READ (R134). -/
def ExposureUnit.bytes (e : ExposureUnit) : Bytes :=
  e.scene.bytes ++ e.lock.bytes ++ optional 1 flag e.lock.uncorrected ++ optional 19 Solution.bytes e.solution ++
    e.setup.bytes ++ u8 e.program.length ++
    optional 2 (fun g : Staging => u8 g.total ++ u8 g.points.length) e.staging

/-- Panning mark, fast count and quiet count of an axis (R147). -/
def ShiftAxis.bytes (x : ShiftAxis) : Bytes := flag x.panning ++ u8 x.fast ++ u8 x.quiet

/-- The data of STAB_READ (R147). -/
def Stabilizer.bytes (t : Stabilizer) : Bytes :=
  u8 t.state.code ++ flag t.enabled ++ u16 t.panThreshold ++ s16 t.yaw.position ++ s16 t.pitch.position ++
    s24 t.yaw.integrator ++ s24 t.pitch.integrator ++ t.yaw.bytes ++ t.pitch.bytes ++ u8 t.gain ++ flag t.resolved ++
    flag t.faultUnread ++ flag t.exposureOpen ++ flag t.limitMark ++ flag t.leftActive

/-- The release setup, in the order of R170. -/
def ReleaseSetup.bytes (u : ReleaseSetup) : Bytes :=
  u8 u.mode.code ++ u8 u.burstLimit ++ flag u.focusPriority ++ flag u.afOnHalf ++ flag u.aeLockOnHalf ++ flag u.steadyWait

/-- The burst record (R151). -/
def Burst.bytes (b : Burst) : Bytes :=
  flag b.running ++ u8 b.shotsArmed ++ optional 1 (fun i : Fin 12 => u8 i.val) b.current ++ flag b.shotDue ++
    optional 1 (fun e : EndReason => u8 e.code) b.endReason ++ flag b.notice

/-- The exposure control (R151). -/
def ExposureControl.bytes (c : ExposureControl) : Bytes :=
  optional 1 (fun i : Fin 12 => u8 i.val) c.armed ++ flag c.irisSettled ++ u8 c.steady.code

/-- The data of RELEASE_READ (R171). -/
def Release.bytes (r : Release) : Bytes :=
  u8 r.state.code ++ u8 r.position.code ++ r.setup.bytes ++ optional 1 (fun o : HalfSweep => u8 o.code) r.sweepOutcome ++
    flag r.sweepOwed ++ flag r.lockAwaited ++ flag r.awaitingFocus ++
    optional 1 (fun c : Result => u8 c.code) r.lastRefusal ++ r.burst.bytes ++ flag r.stallTimer ++ r.control.bytes ++
    r.sizeTable.toList.flatMap u16 ++ u24 r.storeFree ++ u24 r.heldSum ++ u32 r.shotCounter ++
    r.slots.toList.flatMap (fun t => u8 t.state.code ++ flag t.notice)

/-- The fields a slot holds from ARMED, in the order of R163. -/
def Shot.bytes (x : Shot) : Bytes :=
  u8 x.origin.code ++ u32 x.number ++ u8 x.burstIndex ++ x.settings.bytes ++ optional 2 s16 x.ev ++
    deficitBytes x.deficit ++ u8 x.context ++ u8 x.band ++ u16 x.zoomPosition

/-- The data of SLOT_READ (R163): a FREE slot is its number and state alone. -/
def Slot.bytes (t : Slot) (i : Fin 12) : Bytes :=
  u8 i.val ++ u8 t.state.code ++
    (match t.shot with
     | none => []
     | some x =>
       x.bytes ++ optional 2 u16 t.focus ++ optional 1 flag (t.marks.map fun m => m.shake) ++
         optional 1 flag (t.marks.map fun m => m.unsteady) ++ optional 2 u16 t.reservation ++ optional 3 u24 t.size ++
         flag t.notice)

/-- The data of STATUS (R179): a byte for each source, and the standby state. -/
def State.statusData (s : State) : Bytes := (attentionSources s).flatMap flag ++ flag s.standby

end Sys2Proof.Machine
end

