-- ==== Sys2Proof/Machine/ExposureOps.lean ====
section
/-! DEFINITION. The Exposure Unit's record: scenes, the AE lock, the program and the solve (07). -/

namespace Sys2Proof.Machine

/-- The value a zone contributes, if it is counted (R123). REF never reaches the unit (R119) and would not be counted. -/
def ZoneResult.used (z : ZoneResult) : Option Nat :=
  match z.status with
  | .ok => some (z.value.getD 0)
  | .over => some Config.overValue
  | .under => some Config.underValue
  | .refFault | .none | .ref => none

/-- The counted weight and the weighted sum of a pass (R123). -/
def weightedSums (weights : Vector Nat 8) (zones : Vector ZoneResult 8) : Nat × Nat :=
  (weights.toList.zip zones.toList).foldr (fun x acc =>
    match x.2.used with
    | some v => (x.1 + acc.1, x.1 * v + acc.2)
    | none => acc) (0, 0)

/-- The brightness of a pass, or none when the counted weight is zero (R123). -/
def brightness (weights : Vector Nat 8) (zones : Vector ZoneResult 8) : Option Nat :=
  let t := weightedSums weights zones
  if 0 < t.1 then some (t.2 / t.1) else none

/-- The new scene of a pass (R123, R124), with the record's loss when it is resolved. -/
def ExposureUnit.newScene (e : ExposureUnit) (zones : Vector ZoneResult 8) (record : LensRecord) : Scene :=
  let count := (e.scene.sweepCount + 1) % 65536
  match brightness e.setup.weights zones with
  | none => ⟨none, false, count⟩
  | some b =>
    let loss := if record.resolved then record.facts.loss else 0
    ⟨some ⟨b, loss, (b : Int) - loss + e.setup.compensation⟩, !record.resolved, count⟩

/-- The lock that AE_LOCK takes from a scene (R126). -/
def Scene.toLock (c : Scene) : AeLock :=
  match c.figures with
  | some f => .held f.ev c.uncorrected
  | none => .pending

/-- A pending lock is filled by a valid scene (R127): the unit, and whether the release is to be told. -/
def ExposureUnit.fillLock (e : ExposureUnit) : ExposureUnit × Bool :=
  match e.lock, e.scene.figures with
  | .pending, some f => ({ e with lock := .held f.ev e.scene.uncorrected }, true)
  | _, _ => (e, false)

/-- The scene's EV under a new compensation (R125). -/
def Scene.recompensate (c : Scene) (compensation : Int) : Scene :=
  { c with figures := c.figures.map fun f => { f with ev := (f.b : Int) - f.loss + compensation } }

/-- The EV that a solve works from, with its UNCORRECTED mark, and the LOCKED mark (R130). -/
def ExposureUnit.chooseEv (e : ExposureUnit) : Option (Int × Bool) × Bool :=
  match e.lock with
  | .held ev u => (some (ev, u), true)
  | .none | .pending => (e.scene.figures.map fun f => (f.ev, e.scene.uncorrected), false)

/-- The last point whose EV_from does not exceed the EV, with its place from 1 (R131). -/
def choosePoint (program : List Point) (ev : Int) : Option (Nat × Settings) :=
  ((program.zipIdx 1).filter fun q => decide (q.1.evFrom ≤ ev)).getLast?.map fun q => (q.2, q.1.settings)

/-- The chosen settings and the point used, or NO_EXPOSURE (R130, R131). -/
def ExposureUnit.choose (e : ExposureUnit) : Option (Option Nat × Settings) :=
  match e.setup.mode with
  | .manual => some (none, e.setup.manual)
  | .auto =>
    match e.chooseEv.1 with
    | some (ev, _) => (choosePoint e.program ev).map fun q => (some q.1, q.2)
    | none => none

/-- The gain asked for after the iris clamp: the shortfall is made up, one sixteenth to an iris step (R132). -/
def madeUpGain (g : Settings) (widest : Nat) : Nat := g.gain + (widest - g.iris)

/-- The solve (R130 to R133), or none for NO_EXPOSURE. -/
def ExposureUnit.solve (e : ExposureUnit) (widest : Nat) : Option Solution :=
  match e.choose with
  | none => none
  | some (point, g) =>
    let c := e.chooseEv
    let up := madeUpGain g widest
    some {
      solved := ⟨g.time, max g.iris widest, min up Config.gainLimit⟩
      ev := c.1.map fun x => x.1
      mode := e.setup.mode
      point := point
      chosenIris := g.iris
      chosenGain := g.gain
      widestIris := widest
      locked := c.2
      uncorrected := (c.1.map fun x => x.2).getD false
      deficit := if Config.gainLimit < up then some (up - Config.gainLimit) else none }

/-- EV_from rises strictly along a list of points (R128, R129). -/
def rising : List Point → Bool
  | q :: r :: rest => decide (q.evFrom < r.evFrom) && rising (r :: rest)
  | _ => true

/-- The points staged before a part, if the part may follow them (R129, step 2). -/
def ExposureUnit.stagedBefore (e : ExposureUnit) (part : ProgramPart) : Option (List Point) :=
  if part.first = 1 then some []
  else
    match e.staging with
    | some g => if g.total = part.total ∧ part.first = g.points.length + 1 then some g.points else none
    | none => none

/-- The staged points after a part, if every check of R129 passes. R129 gives the total its range 0..12 and counts first point
numbers from 1, but names neither in its numbered checks: that a total above 12 or a first point number of 0 fails like one of
them, and so discards the staging, is the model's choice (log 42). -/
def ExposureUnit.stagePart (e : ExposureUnit) (part : ProgramPart) : Option (List Point) :=
  let sizeOk : Bool :=
    if part.total = 0 then decide (part.first = 1 ∧ part.points = [])
    else decide (1 ≤ part.points.length ∧ part.points.length ≤ 6)
  if part.total ≤ 12 ∧ 1 ≤ part.first ∧ sizeOk ∧ part.points.all Point.inRange then
    match e.stagedBefore part with
    | some before =>
      let all := before ++ part.points
      if all.length ≤ part.total ∧ rising all then some all else none
    | none => none
  else none

end Sys2Proof.Machine
end

