-- ==== Sys2Proof/Machine/StabilizerOps.lean ====
section
/-! DEFINITION. The Stabilizer's record: samples, pans, centring, notices and exposure marks (08). -/

namespace Sys2Proof.Machine

/-- One sample integrated on an axis (R139): the axis, and whether its target exceeded the shift range. -/
def ShiftAxis.integrate (x : ShiftAxis) (gain : Nat) (rate : Int) : ShiftAxis × Bool :=
  let n := clampInt (-Config.integratorLimit) Config.integratorLimit (x.integrator - x.integrator.tdiv 64 + rate)
  let target := (n * gain).tdiv 4096
  ({ x with integrator := n, position := clampInt (-Config.shiftLimit) Config.shiftLimit target },
    decide (Config.shiftLimit < target ∨ target < -Config.shiftLimit))

/-- A sample on an axis that is not panning (R140): the fast count, then a pan entered or the sample integrated. -/
def ShiftAxis.steadySample (x : ShiftAxis) (threshold gain : Nat) (rate : Int) : ShiftAxis × Bool :=
  let fast := if threshold < rate.natAbs then x.fast + 1 else 0
  if Config.panSamples ≤ fast then ({ x with panning := true, quiet := 0, fast := 0, integrator := 0 }, false)
  else ({ x with fast := fast } : ShiftAxis).integrate gain rate

/-- A sample on a panning axis (R141): the quiet count. -/
def ShiftAxis.panSample (x : ShiftAxis) (threshold : Nat) (rate : Int) : ShiftAxis :=
  { x with quiet := if rate.natAbs < threshold / 2 then min (x.quiet + 1) Config.panSamples else 0 }

/-- A sample on one axis in ACTIVE or PANNING. -/
def ShiftAxis.sample (x : ShiftAxis) (threshold gain : Nat) (rate : Int) : ShiftAxis × Bool :=
  if x.panning then (x.panSample threshold rate, false) else x.steadySample threshold gain rate

/-- A position 4 units nearer the centre (R142). -/
def towardCentre (p : Int) : Int := if 4 < p then p - 4 else if p < -4 then p + 4 else 0

/-- Counts and the panning mark are cleared. -/
def ShiftAxis.clearCounts (x : ShiftAxis) : ShiftAxis := { x with fast := 0, quiet := 0, panning := false }

/-- Both axes changed alike. -/
def Stabilizer.onBoth (t : Stabilizer) (f : ShiftAxis → ShiftAxis) : Stabilizer :=
  { t with yaw := f t.yaw, pitch := f t.pitch }

/-- Entry to CENTERING (R142): integrators, counts and panning marks are cleared and the positions kept. -/
def Stabilizer.enterCentering (t : Stabilizer) : Stabilizer :=
  { t.onBoth fun x => { x.clearCounts with integrator := 0 } with state := .centering }

/-- Entry to HELD: positions and integrators are frozen, counts and panning marks cleared (R143). -/
def Stabilizer.enterHeld (t : Stabilizer) : Stabilizer := { t.onBoth ShiftAxis.clearCounts with state := .held }

/-- CENTERING with a resolved record, HELD without (R144, R146, R149, R150). -/
def Stabilizer.enterByRecord (t : Stabilizer) : Stabilizer := if t.resolved then t.enterCentering else t.enterHeld

/-- ACTIVE is being left: the left-ACTIVE mark is set if an exposure is open (R145). -/
def Stabilizer.leaveActive (t : Stabilizer) : Stabilizer :=
  if t.state = .active ∧ t.exposureOpen then { t with leftActive := true } else t

/-- Entry to OFF (R146, R150). -/
def Stabilizer.enterOff (t : Stabilizer) : Stabilizer :=
  { t.onBoth fun x => { x.clearCounts with position := 0, integrator := 0 } with state := .off, silenceTimer := false }

/-- Every panning axis has been quiet long enough (R141). -/
def Stabilizer.panOver (t : Stabilizer) : Bool :=
  (!t.yaw.panning || t.yaw.quiet = Config.panSamples) && (!t.pitch.panning || t.pitch.quiet = Config.panSamples)

/-- A sample taken in ACTIVE or PANNING (R139 to R141). -/
def Stabilizer.steady (t : Stabilizer) (yaw pitch : Int) : Stabilizer :=
  let y := t.yaw.sample t.panThreshold t.gain yaw
  let p := t.pitch.sample t.panThreshold t.gain pitch
  let u : Stabilizer := { t with yaw := y.1, pitch := p.1, limitMark := t.limitMark || (t.exposureOpen && (y.2 || p.2)) }
  if t.state = .active then
    if u.yaw.panning || u.pitch.panning then { u.leaveActive with state := .panning } else u
  else if u.panOver then u.enterCentering
  else u

/-- A sample taken in CENTERING (R142): the Stabilizer, and whether it entered ACTIVE. -/
def Stabilizer.centre (t : Stabilizer) : Stabilizer × Bool :=
  let u := t.onBoth fun x => { x with position := towardCentre x.position }
  if u.yaw.position = 0 ∧ u.pitch.position = 0 then ({ u with state := .active }, true) else (u, false)

/-- A sample arrival (R138): the Stabilizer, and whether it entered ACTIVE. -/
def Stabilizer.sample (t : Stabilizer) (yaw pitch : Int) : Stabilizer × Bool :=
  match t.state with
  | .off => (t, false)
  | .active | .panning => (({ t with silenceTimer := true } : Stabilizer).steady yaw pitch, false)
  | .centering => ({ t with silenceTimer := true } : Stabilizer).centre
  | .held => ({ t with silenceTimer := true }, false)
  | .fault => (({ t with silenceTimer := true } : Stabilizer).enterByRecord, false)

/-- The Stabilizer is told of a load (R143). -/
def Stabilizer.onLoad (t : Stabilizer) (gain : Nat) : Stabilizer :=
  let u : Stabilizer := { t with gain := gain, resolved := true }
  if t.state = .held then u.enterCentering else u

/-- The Stabilizer is told that the record has become unresolved (R143). -/
def Stabilizer.onUnresolved (t : Stabilizer) : Stabilizer :=
  let u : Stabilizer := { t with resolved := false }
  match t.state with
  | .centering | .active | .panning => u.leaveActive.enterHeld
  | .off | .held | .fault => u

/-- A notice of the Band Resolver. -/
def Stabilizer.onNotice (t : Stabilizer) : StabNotice → Stabilizer
  | .load g => t.onLoad g
  | .unresolved => t.onUnresolved

/-- The silence timer expires (R144). -/
def Stabilizer.silence (t : Stabilizer) : Stabilizer :=
  match t.state with
  | .centering | .active | .panning | .held =>
    { t.leaveActive.onBoth ShiftAxis.clearCounts with state := .fault, faultUnread := true, silenceTimer := false }
  | .off | .fault => { t with silenceTimer := false }

/-- An exposure has started (R145). -/
def Stabilizer.exposureStart (t : Stabilizer) : Stabilizer :=
  { t with limitMark := false, exposureOpen := true,
           leftActive := match t.state with
             | .centering | .panning | .held | .fault => true
             | .off | .active => false }

/-- SHAKE, as the Stabilizer answers it at the end of an exposure (R145). -/
def Stabilizer.shake (t : Stabilizer) : Bool := t.limitMark || t.leftActive

/-- The exposure has ended or was cut short (R145). -/
def Stabilizer.exposureEnd (t : Stabilizer) : Stabilizer := { t with exposureOpen := false }

/-- STAB_SETUP's enable item (R146). -/
def Stabilizer.setEnabled (t : Stabilizer) (on : Bool) : Stabilizer :=
  match on, t.state with
  | true, .off => { ({ t with enabled := true } : Stabilizer).enterByRecord with silenceTimer := true }
  | true, _ => t
  | false, .off => t
  | false, _ => { t.leaveActive.enterOff with enabled := false }

/-- The Stabilizer's part of CLEAR (R149). -/
def Stabilizer.clear (t : Stabilizer) : Stabilizer :=
  let u := t.exposureEnd
  if u.enabled then { u.enterByRecord with silenceTimer := true } else u

/-- The Stabilizer's part of standby entry (R150). -/
def Stabilizer.enterStandby (t : Stabilizer) : Stabilizer := { t.enterOff with resolved := false }

/-- The Stabilizer's part of the waking (R150). -/
def Stabilizer.leaveStandby (t : Stabilizer) : Stabilizer :=
  if t.enabled then { t.enterByRecord with silenceTimer := true } else t

/-- The Stabilizer takes every notice that has been made to it, in order. -/
def State.flushStab (s : State) : State :=
  (s.setStab (s.handoffs.stab.foldl Stabilizer.onNotice s.stab)).setHandoffs { s.handoffs with stab := [] }

end Sys2Proof.Machine
end

