-- ==== Sys2Proof/Machine/AxisOps.lean ====
section
/-! DEFINITION. The mechanisms the three axes share, on one axis record: steps and backlash, energizing and waking, settling,
rest and hold release, homing, and the posting of completions (03). -/

namespace Sys2Proof.Machine

/-- The opposite sense of counting: a step toward home lowers a count, a step away raises it. -/
def Direction.sign : Direction → Int
  | .towardHome => -1
  | .awayFromHome => 1

/-- The position after a counted step (R46). -/
def Direction.next (d : Direction) (position : Nat) : Nat :=
  match d with
  | .towardHome => position - 1
  | .awayFromHome => position + 1

/-- Posts a completion: every field is written and pending is set (R62). -/
def AxisRecord.post (r : AxisRecord) (o : AxisOutcome) (final : Option Nat) (summary : Option SweepSummary) : AxisRecord :=
  { r with completion := ⟨true, some o, final, summary⟩ }

/-- The hold-release timer is started if the coils are energized and the profile's hold-release is above 0 (R50). -/
def AxisRecord.startHold (r : AxisRecord) : AxisRecord :=
  if r.hold = .energized ∧ 0 < r.profile.holdRelease then { r with holdTimer := some r.profile.holdRelease } else r

/-- The needed direction toward the target (R46, step 3). -/
def AxisRecord.needed (r : AxisRecord) : Direction :=
  if r.position.getD 0 < r.target.getD 0 then .awayFromHome else .towardHome

/-- Reversal: the last direction follows the needed one, and the backlash of the profile is to be taken (R47). -/
def AxisRecord.reversed (r : AxisRecord) : AxisRecord :=
  if r.needed = r.lastDirection then r
  else { r with lastDirection := r.needed, backlashRemaining := r.profile.backlash }

/-- A step is taken: the coils advance, the step interval timer starts and the axis is MOVING (R46). -/
def AxisRecord.stepped (r : AxisRecord) : AxisRecord :=
  { r with state := .moving, stepTimer := some r.profile.stepInterval, motorSteps := r.motorSteps + r.lastDirection.sign }

/-- A backlash step: the position is unchanged (R46, step 4). -/
def AxisRecord.backlashStep (r : AxisRecord) : AxisRecord :=
  { r.stepped with backlashRemaining := r.backlashRemaining - 1 }

/-- A counted step in the last direction (R46, step 5). -/
def AxisRecord.countedStep (r : AxisRecord) : AxisRecord :=
  { r.stepped with position := r.position.map r.lastDirection.next }

/-- Steps 3 to 5 of R46, on an axis that has no band edges. -/
def AxisRecord.stepOn (r : AxisRecord) : AxisRecord :=
  let t := r.reversed
  if 0 < t.backlashRemaining then t.backlashStep else t.countedStep

/-- The axis enters SETTLING and starts its settle timer; the mover is kept (R50). -/
def AxisRecord.settle (r : AxisRecord) : AxisRecord :=
  { r with state := .settling, stepTimer := none, wakeTimer := none, settleTimer := some r.profile.settle }

/-- The move ends at the present position with the given outcome held (R60 in WAKING, R75, R77). -/
def AxisRecord.settleHere (r : AxisRecord) (e : Ending) : AxisRecord :=
  { r with target := r.position, stopPending := .none, ending := e }.settle

/-- As `settleHere`, with the backlash remaining at 0 (R60 in MOVING, R72). -/
def AxisRecord.haltHere (r : AxisRecord) (e : Ending) : AxisRecord :=
  { r with backlashRemaining := 0 }.settleHere e

/-- The coils are driven and the wake time runs (R48, R49); `state` is WAKING for a move and HOMING for a homing. -/
def AxisRecord.wake (r : AxisRecord) (state : AxisState) : AxisRecord :=
  { r with state := state, hold := .energized, wakeTimer := some r.profile.wake }

/-- The axis comes to IDLE at its position: nothing runs and no mover is left (R50, R69). -/
def AxisRecord.rest (r : AxisRecord) : AxisRecord :=
  { r with state := .idle, target := r.position, mover := none, joined := none, stopPending := .none, ending := .reached,
           stepTimer := none, wakeTimer := none, settleTimer := none }

/-- The coils are let go and no timer runs for them (R48, R70). -/
def AxisRecord.letGo (r : AxisRecord) : AxisRecord := { r with hold := .released, holdTimer := none }

/-- An axis brought to rest by CLEAR, or by a CLEAR stop that standby entry left pending, whose coils are then released
(R69, R181). -/
def AxisRecord.clearRest (r : AxisRecord) : AxisRecord :=
  let t := { r.rest with releaseAtRest := false }
  if r.releaseAtRest then t.letGo else t.startHold

/-- The axis leaves HOMING without a position: UNHOMED, coils as they are (R60, R69). -/
def AxisRecord.unhome (r : AxisRecord) : AxisRecord :=
  { r with state := .unhomed, position := none, target := none, mover := none, joined := none, stopPending := .none,
           releaseAtRest := false, ending := .reached, stepTimer := none, wakeTimer := none, settleTimer := none }.startHold

/-- Homing starts (R51): position and target become absent and the counts 0. -/
def AxisRecord.startHoming (r : AxisRecord) : AxisRecord :=
  { r with state := .homing, position := none, target := none, homingCount := 0, backlashRemaining := 0,
           mover := some .host, joined := none, ending := .reached, holdTimer := none }

/-- Home is found (R53). -/
def AxisRecord.foundHome (r : AxisRecord) : AxisRecord :=
  { r with position := some 0, target := some 0, lastDirection := .towardHome, mover := some .host,
           ending := .homed }.settle

/-- Home is not found (R52, step 3). -/
def AxisRecord.failHoming (r : AxisRecord) : AxisRecord :=
  ({ r with state := .fault, mover := none, stepTimer := none, wakeTimer := none }.letGo).post .homeNotFound none none

/-- A homing step (R52, step 4); it is the most recent step taken, so it gives the last direction (R44; log 34). -/
def AxisRecord.homingStep (r : AxisRecord) : AxisRecord :=
  { r with lastDirection := .towardHome, homingCount := r.homingCount + 1, stepTimer := some r.profile.stepInterval,
           motorSteps := r.motorSteps - 1 }

/-- A homing decision (R52) with the level the home sensor reads. A STOP is posted, a CLEAR is not. -/
def AxisRecord.homingDecision (r : AxisRecord) (limit : Nat) (sensor : Bool) : AxisRecord :=
  match r.stopPending with
  | .stop => r.unhome.post .stopped none none
  | .clear => r.unhome
  | .none =>
    if sensor then r.foundHome
    else if limit ≤ r.homingCount then r.failHoming
    else r.homingStep

/-- The outcome that a settled host move posts (R50). -/
def Ending.outcome : Ending → AxisOutcome
  | .reached => .reached
  | .stopped => .stopped
  | .homed => .homed
  | .bandForbidden => .bandForbidden
  | .mapMiss => .mapMiss

/-- A settled move comes to IDLE: a host move posts its completion, and the hold-release timer starts (R50). -/
def AxisRecord.settled (r : AxisRecord) : AxisRecord :=
  let t := if r.mover = some .host then r.post r.ending.outcome r.position none else r
  t.rest.startHold

/-- A host or internal move begins on an axis in IDLE or SETTLING (R55, R57): what it sets before it starts. A settling host
move keeps its mover when an internal move joins it (R58). The host move's outcome is then posted REACHED, also when AXIS_STOP
had ended it and it was settling (log 36). -/
def AxisRecord.begin (r : AxisRecord) (target : Nat) (m : Mover) : AxisRecord :=
  let joins : Bool := r.state = .settling && r.mover = some .host && m ≠ .host
  { r with target := some target, mover := some (if joins then .host else m), joined := if joins then some m else none,
           ending := .reached, holdTimer := none, settleTimer := none }

/-- A move on an axis in WAKING or MOVING takes a new target (R56, R57): a pending stop is cancelled, a host move keeps its
mover under an internal move (R58). The release of the coils that standby entry left pending goes with the stop (log 37). -/
def AxisRecord.retarget (r : AxisRecord) (target : Nat) (m : Mover) : AxisRecord :=
  let joins : Bool := r.mover = some .host && m ≠ .host
  { r with target := some target, mover := some (if joins then .host else m), joined := if joins then some m else none,
           stopPending := .none, releaseAtRest := false }

/-- A move that has been set starts on an axis without band edges: it settles at once at its target, steps if the coils are
energized, and wakes them otherwise (R55). -/
def AxisRecord.startPlain (r : AxisRecord) : AxisRecord :=
  if r.target = r.position then r.settle
  else if r.hold = .energized then r.stepOn
  else r.wake .waking

/-- An internal move on an axis without band edges (R57). -/
def AxisRecord.internal (r : AxisRecord) (target : Nat) (m : Mover) : AxisRecord :=
  match r.state with
  | .idle | .settling => (r.begin target m).startPlain
  | .waking | .moving => r.retarget target m
  | .unhomed | .homing | .fault | .waitMap => r

/-- A stop of FOCUS is under way (R80). -/
def AxisRecord.stopping (r : AxisRecord) : Bool :=
  match r.state with
  | .moving => r.stopPending ≠ .none
  | .settling => r.ending = .stopped
  | _ => false

/-- A homing whose settle has not expired (R53, R82). -/
def AxisRecord.settlingHome (r : AxisRecord) : Bool := r.state = .settling && r.ending = .homed

end Sys2Proof.Machine
end

