-- ==== Sys2Proof/Machine/ResolverOps.lean ====
section
/-! DEFINITION. The Band Resolver's resolutions and pins, and the zoom's side of a band crossing (02, 04). -/

namespace Sys2Proof.Machine

/-- The fields that a load copies (R29). -/
def Entry.facts (e : Entry) : LensFacts :=
  ⟨e.context, e.band, e.global, e.drivePermit, e.offset, e.far, e.near, e.widestIris, e.loss, e.gain⟩

/-- The band of the zoom's present position, if the zoom is homed (R30). -/
def State.zoomBand (s : State) : Option Nat :=
  if s.zoom.state.homed then s.zoom.position.map bandOf else none

/-- The wanted band (R30). -/
def State.wantedBand (s : State) : Option Nat :=
  if s.zoom.state = .waitMap then
    match s.travel.bandWaited with
    | some b => some b
    | none => s.zoomBand
  else s.zoomBand

/-- The record becomes unresolved, and the Stabilizer is told if it was resolved (R32, R33). -/
def State.unresolve (s : State) : State :=
  if s.resolver.record.resolved then
    (s.setResolver { s.resolver with record := { s.resolver.record with resolved := false } }).postStab .unresolved
  else s

/-- The record is loaded from a map entry for a pair, and the load is handed on (R31). -/
def State.load (s : State) (i : Fin 32) (q : Pair) : State :=
  let e := s.map.entries[i]
  let reference := s.resolver.record.facts.offset
  ((s.setResolver { s.resolver with
      record := ⟨true, e.facts, some i, some q⟩, miss := none, missUnread := false }).postLoad
    ⟨e.facts, reference⟩).postStab (.load e.gain)

/-- A lookup missed: the record is unresolved and the miss record is written (R32). -/
def State.writeMiss (s : State) (q : Pair) (source : MissSource) : State :=
  let t := s.unresolve
  t.setResolver { t.resolver with miss := some ⟨q.context, q.band, source⟩, missUnread := true }

/-- A lookup outside a band crossing, for a band (R31, R32). -/
def State.resolveBand (s : State) (band : Nat) (source : MissSource) : State :=
  let q : Pair := ⟨s.resolver.context, band⟩
  match s.map.lookup q with
  | some i => s.load i q
  | none => s.writeMiss q source

/-- A lookup outside a band crossing, for the band of the zoom's position, or the not-homed outcome (R30, R33). -/
def State.resolveHere (s : State) (source : MissSource) : State :=
  match s.zoomBand with
  | some b => s.resolveBand b source
  | none => s.unresolve

/-- The band-crossing wait is over: refill timer, band waited for and direction are cleared (R74 to R77). -/
def ZoomTravel.endWait (t : ZoomTravel) : ZoomTravel :=
  { t with refillTimer := false, bandWaited := none, crossing := none }

/-- The zoom's move ends short of a forbidden band at its position, BAND_FORBIDDEN held (R72). -/
def State.zoomForbidden (s : State) : State :=
  s.setAxis .zoom { s.zoom.haltHere .bandForbidden with mover := some .host }

/-- The crossing lookup (R34). -/
def State.crossingLookup (s : State) (band : Nat) : Crossing :=
  match s.map.lookup ⟨s.resolver.context, band⟩ with
  | some i => if (s.map.entries[i]).drivePermit then .permitted i else .forbidden
  | none => .missed

/-- A resolution while ZOOM waits for `band`: the crossing lookup, acted on in the same event (R74). -/
def State.resolveWaiting (s : State) (band : Nat) (source : MissSource) : State :=
  match s.crossingLookup band with
  | .permitted i =>
    let t := s.load i ⟨s.resolver.context, band⟩
    (t.setTravel t.travel.endWait).setAxis .zoom
      ({ t.zoom with lastDirection := s.travel.crossing.getD t.zoom.lastDirection }.countedStep)
  | .forbidden => (s.setTravel s.travel.endWait).zoomForbidden.resolveHere .zoomStep
  | .missed => s.writeMiss ⟨s.resolver.context, band⟩ source

/-- A resolution is called for (R30): deferred while pinned (R37); not made in standby, where the record stays unresolved
(R27, R43; log 10); the crossing lookup while ZOOM waits (R74); otherwise a lookup for the band of the position. -/
def State.resolve (s : State) (source : MissSource) : State :=
  if s.resolver.pinned then s.setResolver { s.resolver with deferred := true }
  else if s.standby then s
  else if s.zoom.state = .waitMap then
    match s.travel.bandWaited with
    | some b => s.resolveWaiting b source
    | none => s.resolveHere source
  else s.resolveHere source

/-- An index reported valid holds an entry that matches a pair (R35). -/
def State.reportMatches (s : State) (r : Report) (q : Pair) : Bool :=
  r.any fun x => x.2 && (s.map.entries[x.1]).matchesPair q

/-- A report of an applied update is examined (R35). -/
def State.examine (s : State) (r : Report) : State :=
  if s.resolver.record.resolved then
    match s.resolver.record.source with
    | some i => if r.any (fun x => decide (x.1 = i)) then s.resolve .update else s
    | none => s
  else
    match s.wantedBand with
    | some b => if s.reportMatches r ⟨s.resolver.context, b⟩ then s.resolve .update else s
    | none => s

/-- Every report in flight is examined, oldest first: what reaches the resolver later finds the reports made earlier taken
(R35; log 33). -/
def State.takeReports (s : State) : State :=
  s.handoffs.reports.foldl State.examine (s.setHandoffs { s.handoffs with reports := [] })

/-- The map examines its head up to `fuel` times (R19): each update applied is reported, and the report examined, before the
next head is tested (R21, R35). A report of nothing changed has no effect. -/
def State.drain (s : State) : Nat → State
  | 0 => s
  | fuel + 1 =>
    match s.map.examineHead s.resolver with
    | none => s
    | some x => ((s.setMap x.1).examine x.2).drain fuel

/-- The map drains its queue (R19), after the reports in flight, which were made before those of the drain (R35; log 33). -/
def State.drained (s : State) : State := s.takeReports.drain s.map.queue.length

/-- The zoom's wait ends on the old band with an outcome held, and the old band is resolved (R75, R77). -/
def State.zoomEndWait (s : State) (e : Ending) : State :=
  ((s.setTravel s.travel.endWait).setAxis .zoom { s.zoom.settleHere e with mover := some .host }).resolve .zoomStep

/-- A counted ZOOM step that would leave its band (R71): the crossing lookup decides whether it is taken, whether the move
ends short of the band, or whether the zoom waits (R72, R73). `r` is the zoom record after any reversal. -/
def State.zoomCross (s : State) (r : AxisRecord) (band : Nat) : State :=
  match s.crossingLookup band with
  | .permitted i => (s.load i ⟨s.resolver.context, band⟩).setAxis .zoom r.countedStep
  | .forbidden => (s.setAxis .zoom r).zoomForbidden
  | .missed =>
    ((s.writeMiss ⟨s.resolver.context, band⟩ .zoomStep).setAxis .zoom
      { r with state := .waitMap, stepTimer := none, wakeTimer := none, backlashRemaining := 0 }).setTravel
        { s.travel with refillTimer := true, bandWaited := some band, crossing := some r.lastDirection }

/-- Steps 3 to 5 of R46 on ZOOM, with the band check of R71. -/
def State.zoomStepOn (s : State) : State :=
  let r := s.zoom.reversed
  if 0 < r.backlashRemaining then s.setAxis .zoom r.backlashStep
  else
    let p := r.position.getD 0
    let q := r.lastDirection.next p
    if bandOf q = bandOf p then s.setAxis .zoom r.countedStep else s.zoomCross r (bandOf q)

/-- Steps 3 to 5 of R46 on any axis. -/
def State.stepAxis (s : State) (a : AxisId) : State :=
  match a with
  | .zoom => s.zoomStepOn
  | .focus | .iris => s.setAxis a (s.axis a).stepOn

/-- A move that has been set starts (R55). -/
def State.startMove (s : State) (a : AxisId) : State :=
  let r := s.axis a
  if r.target = r.position then s.setAxis a r.settle
  else if r.hold = .energized then s.stepAxis a
  else s.setAxis a (r.wake .waking)

/-! ### Pins (R36 to R38) -/

/-- Whether a holder's place is held. -/
def Resolver.holdsPin (r : Resolver) : PinHolder → Bool
  | .slot => r.slotPin
  | .sweep => r.sweepPin

/-- Marks or clears a holder's place. -/
def Resolver.setPin (r : Resolver) (h : PinHolder) (b : Bool) : Resolver :=
  match h with
  | .slot => { r with slotPin := b }
  | .sweep => { r with sweepPin := b }

/-- A holder asks for its pin: it is granted if the record is resolved (R36). -/
def State.askPin (s : State) (h : PinHolder) : Option State :=
  if s.resolver.record.resolved then some (s.setResolver (s.resolver.setPin h true)) else none

/-- A pending accessory code comes into force (R38 step 1, R42 step 2). -/
def Resolver.applyPending (r : Resolver) : Resolver :=
  match r.pendingCode with
  | some c => { r with accessory := c, pendingCode := none }
  | none => r

/-- The pin count has fallen to zero (R38). -/
def State.pinsGone (s : State) : State :=
  let t := s.setResolver s.resolver.applyPending
  let u := if t.resolver.deferred then (t.setResolver { t.resolver with deferred := false }).resolve .context else t
  u.postDrain

/-- A holder releases its pin (R36). The release of a place that is not held changes nothing; the slot pin's release is
answered by a notice, made at the end. -/
def State.releasePin (s : State) (h : PinHolder) : State :=
  if s.resolver.holdsPin h then
    let t := s.setResolver (s.resolver.setPin h false)
    let u := if t.resolver.pinned then t else t.pinsGone
    match h with
    | .slot => u.postPin
    | .sweep => u
  else s

end Sys2Proof.Machine
end

