-- ==== Sys2Proof/Machine/TrackingOps.lean ====
section
/-! DEFINITION. Internal moves, focus tracking, owed tracking and the hand-off of a completed homing (03 §3.5, 04 §4.3). -/

namespace Sys2Proof.Machine

/-- An internal move of FOCUS or IRIS (R57); no internal move drives ZOOM (R84). -/
def State.internalMove (s : State) (a : AxisId) (target : Nat) (m : Mover) : State :=
  s.setAxis a ((s.axis a).internal target m)

/-- A focus target brought within a record's limits (R78, step 3). -/
def LensFacts.clamp (f : LensFacts) (x : Int) : Nat := (clampInt f.far f.near x).toNat

/-- The owed tracking is given up or used: the mark is cleared and the amount 0 (R81). -/
def ZoomTravel.clearOwed (t : ZoomTravel) : ZoomTravel := { t with owedMark := false, owed := 0 }

/-- An amount added to the owed tracking, held within its range (R80). -/
def ZoomTravel.addOwed (t : ZoomTravel) (delta : Int) : ZoomTravel :=
  { t with owedMark := true, owed := clampInt (-Config.owedLimit) Config.owedLimit (t.owed + delta) }

/-- FOCUS has entered IDLE: owed tracking is applied with a resolved record, and otherwise kept (R81). A focus group that a
sweep owns keeps what is owed (log 14). -/
def State.applyOwed (s : State) : State :=
  if s.travel.owedMark && s.resolver.record.resolved && s.focus.ownership ≠ .sweep then
    let p := s.focus.position.getD 0
    let target := s.resolver.record.facts.clamp (p + s.travel.owed)
    let t := s.setTravel s.travel.clearOwed
    if target = p then t else t.internalMove .focus target .tracking
  else s

/-- FOCUS homing has completed: its target is brought within a resolved record's limits (R82). -/
def State.focusHomed (s : State) : State :=
  if s.resolver.record.resolved then
    let present := s.focus.target.getD 0
    let target := s.resolver.record.facts.clamp present
    if target = present then s else s.internalMove .focus target .tracking
  else s

/-- The completion of a homing is handed on (R53). -/
def State.homingDone (s : State) (a : AxisId) : State :=
  match a with
  | .zoom => s.resolve .zoomStep
  | .focus => s.focusHomed
  | .iris => s

/-- A load is tracked (R78 to R80, R82): discarded where FOCUS has no position, settles from its homing or belongs to a sweep;
owed while FOCUS is being stopped; otherwise the target is shifted and brought within the new limits. -/
def State.track (s : State) (l : TrackLoad) : State :=
  let delta := l.facts.offset - l.reference
  if !s.focus.state.homed || s.focus.settlingHome || s.focus.ownership = .sweep then s
  else if s.focus.stopping then s.setTravel (s.travel.addOwed delta)
  else
    let present := s.focus.target.getD 0
    let target := l.facts.clamp (present + delta + s.travel.owed)
    let t := s.setTravel s.travel.clearOwed
    if target = present then t else t.internalMove .focus target .tracking

/-- Every load in flight is tracked (R78). -/
def State.deliverLoads (s : State) : State :=
  s.handoffs.loads.foldl State.track (s.setHandoffs { s.handoffs with loads := [] })

/-- Reports and loads in flight reach the record and FOCUS before a sweep takes them (log 33). -/
def State.takeHandoffs (s : State) : State := s.takeReports.deliverLoads

end Sys2Proof.Machine
end

