-- ==== Sys2Proof/Machine/ReleaseOps.lean ====
section
/-! DEFINITION. Arming, exposure, bursts and the notices the Release and Slot Controller takes (09). -/

namespace Sys2Proof.Machine

/-! ### The controller's record -/

/-- Replaces a slot. -/
def Release.setSlot (r : Release) (i : Fin 12) (t : Slot) : Release := { r with slots := put r.slots i t }

/-- PREPARING while a sweep is owed or a lock awaited, READY otherwise (R153, R155). -/
def Release.prepared (r : Release) : ReleaseState := if r.sweepOwed || r.lockAwaited then .preparing else .ready

/-- A release in PREPARING whose marks are both clear becomes READY (R154). -/
def Release.readyIfDone (r : Release) : Release :=
  if r.state = .preparing ∧ r.sweepOwed = false ∧ r.lockAwaited = false then { r with state := .ready } else r

/-- A burst ends with a reason (R155). -/
def Release.endBurst (r : Release) (reason : EndReason) : Release :=
  { r with
    burst := { r.burst with running := false, current := none, shotDue := false, endReason := some reason, notice := true }
    state := if r.state = .firing then r.prepared else r.state }

/-- The end reason for a refused arm of a burst (R151, R155). -/
def refusalReason : Result → EndReason
  | .noCapacity => .storeFull
  | .notFocused => .notFocused
  | .wrongState => .wrongState
  | .noLens => .noLens
  | .notHomed => .notHomed
  | .noExposure => .noExposure
  | .noSlot => .noSlot
  | _ => .busy

/-- An arm of the burst is refused (R155). -/
def Release.refuseArm (r : Release) (code : Result) : Release :=
  ({ r with lastRefusal := some code } : Release).endBurst (refusalReason code)

/-- A full press begins a burst (R155). -/
def Release.beginBurst (r : Release) : Release :=
  { r with burst := { r.burst with running := true, shotsArmed := 0, current := none, endReason := none }, state := .firing }

/-- The exposure control and its steady wait are cleared (R161, R162, R166). -/
def Release.clearControl (r : Release) : Release := { r with control := ExposureControl.cleared, steadyTimer := false }

/-- The shutter closes and EXPOSE goes low (R161, R166, R173). -/
def Release.closeShutter (r : Release) : Release := { r with shutter := false, expose := false, exposureTimer := none }

/-- FINISHING ends when the slot it waits on has left ARMED and EXPOSING (R168; with FULL held, log 15). -/
def Release.finish (r : Release) (i : Fin 12) : Release :=
  if r.state = .finishing ∧ r.finishingOn = some i then
    { r with finishingOn := none, state := if r.position = .none then .opened else r.prepared }
  else r

/-- The limit on the shots of a burst (R167). -/
def ReleaseSetup.shotLimit (u : ReleaseSetup) : Nat :=
  match u.mode with
  | .single => 1
  | .burst => u.burstLimit

/-- The current slot of a running burst has left ARMED or EXPOSING by exposure end or discard (R167). -/
def Release.nextShot (r : Release) (i : Fin 12) : Release :=
  if r.burst.running ∧ r.burst.current = some i then
    if r.setup.shotLimit ≤ r.burst.shotsArmed then r.endBurst .limit
    else
      match r.firstFree with
      | some _ => { r with burst := { r.burst with current := none, shotDue := true } }
      | none => { r with burst := { r.burst with current := none }, stallTimer := true }
  else r

/-- The row of the size table for a solved gain: 0 to 23, 24 to 47, 48 to 71, 72 to 96 (R157). -/
def gainRow (gain : Nat) : Fin 4 := ⟨min (gain / 24) 3, by omega⟩

/-- The reservation for a solved gain (R157). -/
def Release.reservationFor (r : Release) (gain : Nat) : Nat := r.sizeTable[gainRow gain]

/-- The shot counter after one arm (R158). -/
def nextShotNumber (n : Nat) : Nat := (n + 1) % 4294967296

/-! ### Arming (R157, R158) -/

/-- The steady state set at an arm (R159). -/
def State.steadyAtArm (s : State) : Steady :=
  if !s.release.setup.steadyWait || !s.stab.enabled || s.stab.state = .active then .met else .waiting

/-- The picture that an arm records (R158). -/
def State.shotFor (s : State) (origin : ShotOrigin) (burstIndex : Nat) (sol : Solution) : Shot :=
  { origin := origin
    number := nextShotNumber s.release.shotCounter
    burstIndex := burstIndex
    settings := sol.solved
    ev := sol.ev
    deficit := sol.deficit
    context := (s.resolver.record.pair.map fun q => q.context).getD 0
    band := (s.resolver.record.pair.map fun q => q.band).getD 0
    zoomPosition := s.zoom.position.getD 0 }

/-- An arm whose pin is granted takes slot `i` (R158, steps 2 to 7). -/
def State.armSlot (s : State) (origin : ShotOrigin) (burstIndex : Nat) (sol : Solution) (i : Fin 12) : State :=
  let shot := s.shotFor origin burstIndex sol
  let steady := s.steadyAtArm
  let slot : Slot := ⟨.armed, some shot, none, none, some (s.release.reservationFor sol.solved.gain), none, false⟩
  let t := s.setAxis .iris { s.iris with ownership := .exposure }
  let u := t.internalMove .iris sol.solved.iris .exposure
  u.setRelease { (u.release.setSlot i slot) with
    shotCounter := shot.number
    control := ⟨some i, false, steady⟩
    steadyTimer := decide (steady = .waiting) }

/-- The checks of R157 in order: the first refusal, or the solution and the slot to take; with the Exposure Unit after them,
for the solve writes the last solution even when a later check refuses (R133). -/
def State.armChecks (s : State) : ExposureUnit × Except Result (Solution × Fin 12) :=
  if s.meter.reference then (s.exposure, .error .wrongState)
  else if !s.resolver.record.resolved then (s.exposure, .error .noLens)
  else if s.zoom.state.inTravel then (s.exposure, .error .busy)
  else if !s.iris.state.homed then (s.exposure, .error .notHomed)
  else
    match s.exposure.solve s.resolver.record.facts.widestIris with
    | none => (s.exposure, .error .noExposure)
    | some sol =>
      ({ s.exposure with solution := some sol },
        if s.release.anyActive then .error .busy
        else
          match s.release.firstFree with
          | none => .error .noSlot
          | some i =>
            if s.release.heldSum + s.release.reservationFor sol.solved.gain ≤ s.release.storeFree then .ok (sol, i)
            else .error .noCapacity)

/-- An arm (R157, R158). The reports in flight reach the resolver before the pin is asked for (log 33): the checks are made on
the record that they leave, or on the present one if they unresolve it. A refusal of a check leaves everything but the last
solution as it was; an arm that has passed and finds the record unresolved is refused at the pin (R158, step 1). -/
def State.arm (s : State) (origin : ShotOrigin) (burstIndex : Nat) : State × ArmAnswer :=
  let t := s.takeReports
  let c := (if t.resolver.record.resolved then t else s).armChecks
  match c.2 with
  | .error code => (s.setExposure c.1, .refused code)
  | .ok x =>
    let u := t.setExposure c.1
    match u.askPin .slot with
    | none => (u, .refused .noLens)
    | some v => (v.armSlot origin burstIndex x.1 x.2, .armed x.2 (nextShotNumber v.release.shotCounter))

/-- A shot of the burst is armed, or its refusal ends the burst (R155, R158 step 4). -/
def State.armBurst (s : State) : State :=
  let r := s.arm .switch s.release.burst.shotsArmed
  match r.2 with
  | .refused code => r.1.setRelease (r.1.release.refuseArm code)
  | .armed i _ =>
    r.1.setRelease { r.1.release with
      burst := { r.1.release.burst with shotsArmed := r.1.release.burst.shotsArmed + 1, current := some i } }

/-- A full press (R155). -/
def State.fullPress (s : State) : State :=
  let r := s.release
  match r.state with
  | .preparing | .ready =>
    let t := s.setRelease r.beginBurst
    if !r.setup.focusPriority then t.armBurst
    else if r.sweepOwed then t.setRelease { t.release with awaitingFocus := true }
    else if r.sweepOutcome = some (.ended .hit) then t.armBurst
    else t.setRelease (t.release.refuseArm .notFocused)
  | .finishing => s.setRelease { r with lastRefusal := some .busy, burst := { r.burst with notice := true } }
  | .opened | .firing => s

/-! ### Exposure (R159 to R162) -/

/-- The exposure of an ARMED slot starts (R160). The resolver's notices in flight, made before the record was pinned, reach the
Stabilizer before it is told of the exposure (R143; log 33). -/
def State.startExposure (s : State) (i : Fin 12) (t : Slot) : State :=
  let u := s.flushStab
  (u.setStab u.stab.exposureStart).setRelease
    { (s.release.setSlot i { t with state := .exposing, focus := s.focus.position }) with
      shutter := true
      expose := true
      exposureTimer := some ((t.shot.map fun x => x.settings.time).getD 0) }

/-- The exposure starts if both its conditions hold (R160). -/
def State.tryExposure (s : State) : State :=
  match s.release.control.armed with
  | none => s
  | some i =>
    let t := s.release.slots[i]
    if t.state = .armed ∧ s.release.control.irisSettled ∧ s.release.control.steady ≠ .waiting then s.startExposure i t
    else s

/-- IRIS has settled (R160): the mark is set when a slot is ARMED and the position is its solved iris. -/
def State.irisSettled (s : State) : State :=
  match s.release.control.armed with
  | none => s
  | some i =>
    let t := s.release.slots[i]
    if t.state = .armed ∧ s.iris.position = t.shot.map (fun x => x.settings.iris) then
      (s.setRelease { s.release with control := { s.release.control with irisSettled := true } }).tryExposure
    else s

/-- IRIS ownership is cleared and the slot pin released, as a slot leaves ARMED or EXPOSING (R161, R162, R166). -/
def State.letSlotGo (s : State) : State :=
  (s.setAxis .iris { s.iris with ownership := .none }).releasePin .slot

/-- An armed slot is cancelled (R162), or is cancelled by FULL let go (R168): `refusal` is the last refusal written, and
`reason` the reason of a burst that ends with it. IRIS is not stopped here:
after FULL let go its exposure move goes on (log 40). -/
def State.cancelArm (s : State) (i : Fin 12) (refusal : Option Result) (reason : EndReason) : State :=
  let t := s.letSlotGo
  let r := (t.release.setSlot i Slot.cleared).clearControl
  let r : Release := { r with lastRefusal := if refusal.isSome then refusal else r.lastRefusal,
                              burst := { r.burst with notice := true } }
  let r := if r.burst.running ∧ r.burst.current = some i then r.endBurst reason else r
  t.setRelease (r.finish i)

/-- AXIS_STOP on a moving exposure iris is handed to the controller (R61, R162). -/
def State.irisStopped (s : State) : State :=
  match s.release.control.armed with
  | none => s
  | some i => if (s.release.slots[i]).state = .armed then s.cancelArm i (some .busy) .busy else s

/-- A slot has become FREE while a burst stalls: the shot is armed at once (R167). -/
def State.slotFreed (s : State) : State :=
  if s.release.stallTimer then (s.setRelease { s.release with stallTimer := false }).armBurst else s

/-! ### Notices (R154, R159) -/

/-- The outcome of a half-press sweep is handed over (R154, R155). -/
def State.sweepOutcomeNotice (s : State) (o : SweepOutcome) : State :=
  if s.release.sweepOwed then
    let t := s.setRelease { s.release with sweepOutcome := some (.ended o), sweepOwed := false }
    let u :=
      if t.release.awaitingFocus then
        let v := t.setRelease { t.release with awaitingFocus := false }
        if o = .hit then v.armBurst else v.setRelease (v.release.refuseArm .notFocused)
      else t
    u.setRelease u.release.readyIfDone
  else s.setRelease s.release.readyIfDone

/-- A pending lock has been filled (R154). -/
def State.lockFilledNotice (s : State) : State :=
  s.setRelease ({ s.release with lockAwaited := false } : Release).readyIfDone

/-! ### Passes (R123) -/

/-- A pass is taken (R123, R124, R127): the new scene, the fill of a pending lock, and its notice to the release (R154). -/
def State.takePass (s : State) (zones : Vector ZoneResult 8) : State :=
  let e : ExposureUnit := { s.exposure with scene := s.exposure.newScene zones s.resolver.record }
  let f := e.fillLock
  let t := s.setExposure f.1
  if f.2 then t.lockFilledNotice else t

/-- Every pass handed over is taken, oldest first. -/
def State.takeScenes (s : State) : State :=
  s.handoffs.scenes.foldl State.takePass (s.setHandoffs { s.handoffs with scenes := [] })

end Sys2Proof.Machine
end

