-- ==== Sys2Proof/Machine/SweepOps.lean ====
section
/-! DEFINITION. The focus sweep: its series of stops, its travel, its judgments and its ends (05). -/

namespace Sys2Proof.Machine

/-- The number of stops planned: the distance over the stride, rounded up, plus one (R88). -/
def SweepParams.planned (p : SweepParams) : Nat :=
  let distance := (p.last - p.start) + (p.start - p.last)
  (distance + p.stride - 1) / p.stride + 1

/-- The position of stop n (R88). -/
def SweepParams.stopAt (p : SweepParams) (n : Nat) : Nat :=
  if p.planned ≤ n then p.last
  else if p.start < p.last then p.start + (n - 1) * p.stride
  else p.start - (n - 1) * p.stride

/-- A position lies within a record's focus limits (R92). -/
def LensFacts.within (f : LensFacts) (position : Nat) : Bool := decide (f.far ≤ position ∧ position ≤ f.near)

/-- The next stop within the limits from stop n on, with the number of stops skipped on the way; none when the series is
exhausted (R92). `fuel` is the number of stops from n to the last. -/
def SweepParams.nextWithin (p : SweepParams) (f : LensFacts) : Nat → Nat → Option Nat × Nat
  | 0, _ => (none, 0)
  | fuel + 1, n =>
    if f.within (p.stopAt n) then (some n, 0)
    else
      let t := p.nextWithin f fuel (n + 1)
      (t.1, t.2 + 1)

/-- The completion outcome of a host-started sweep (R62, R101). SWEEP_RELEASED ends half-press sweeps alone. -/
def SweepOutcome.completion : SweepOutcome → AxisOutcome
  | .hit => .sweepHit
  | .miss => .sweepMiss
  | .overrun => .sweepOverrun
  | .released | .stopped => .stopped

/-- The summary of a sweep (R101). -/
def SweepRecord.summary (w : SweepRecord) : SweepSummary where
  stopsPlanned := w.stopsPlanned
  stopNumber := w.stopNumber.getD 0
  stopsJudged := w.stopsJudged
  skipped := w.skipped
  bestValue := w.best.map fun b => b.value
  bestPosition := w.best.map fun b => b.position
  lastValue := w.lastValue

/-- Changes the sweep record. -/
def State.setSweepRecord (s : State) (w : SweepRecord) : State := s.setSweep { s.sweep with record := w }

/-- Leaving AWAITING: the mark is cleared and the deadline stopped (R93). -/
def SweepUnit.leaveAwaiting (w : SweepUnit) : SweepUnit :=
  { w with record := { w.record with awaiting := false }, deadline := false }

/-- Steps 1 to 3 of a sweep's end (R101): the outcome is written, ownership cleared and the pin released. -/
def State.closeSweep (s : State) (o : SweepOutcome) : State :=
  let w := s.sweep.leaveAwaiting
  let t := s.setSweep { w with record := { w.record with state := .ended, outcome := some o } }
  (t.setAxis .focus { t.focus with ownership := .none }).releasePin .sweep

/-- A sweep ends (R101): a host-started sweep posts the FOCUS completion, a half-press sweep hands its outcome over. The pin is
released first, with the accessory change that it held back (log 39). -/
def State.endSweep (s : State) (o : SweepOutcome) : State :=
  let t := s.closeSweep o
  match s.sweep.record.origin with
  | .host => t.setAxis .focus (t.focus.post o.completion t.focus.position (some t.sweep.record.summary))
  | .half => t.sweepOutcomeNotice o

/-- The next stop is chosen and travelled to; the answer says whether one was found (R92). -/
def State.nextStop (s : State) : State × Bool :=
  let w := s.sweep.record
  let n := w.stopNumber.getD 0
  let t := w.params.nextWithin s.resolver.record.facts (w.stopsPlanned - n) (n + 1)
  match t.1 with
  | some k =>
    let p := w.params.stopAt k
    ((s.setSweepRecord { w with state := .travelling, stopNumber := some k, stopPosition := some p,
                                skipped := w.skipped + t.2 }).internalMove .focus p .sweep, true)
  | none => (s.setSweepRecord { w with skipped := w.skipped + t.2 }, false)

/-- The checks 2 to 6 of R89, in order. -/
def State.sweepRefusal (s : State) : Option Result :=
  if s.focus.state = .unhomed ∨ s.focus.state = .homing then some .notHomed
  else if s.focus.state = .fault then some .axisFault
  else if s.focus.completion.pending then some .uncollected
  else if ¬(s.focus.state = .idle ∧ s.focus.ownership = .none ∧ s.sweep.record.state.runs = false) then some .busy
  else if s.zoom.state.inTravel then some .busy
  else if !s.resolver.record.resolved then some .noLens
  else none

/-- Steps 1 to 3 of a sweep's beginning (R91): the record is written afresh, FOCUS is owned and the pin taken. -/
def State.openSweep (s : State) (origin : SweepOrigin) (p : SweepParams) : State :=
  ((s.setSweepRecord ⟨.travelling, origin, p, p.planned, none, none, false, false, 0, none, none, 0, none⟩).setAxis .focus
    { s.focus with ownership := .sweep }).setResolver (s.resolver.setPin .sweep true)

/-- A sweep begins (R91). The answer is the outcome of a sweep that ends within its start: SWEEP_MISS when no stop lies within
the limits, given to the asker and not handed over. -/
def State.beginSweep (s : State) (origin : SweepOrigin) (p : SweepParams) : State × Option SweepOutcome :=
  let t := (s.openSweep origin p).nextStop
  if t.2 then (t.1, none) else (t.1.closeSweep .miss, some .miss)

/-- FOCUS is at rest at a stop, at the best position, or where a stop left it (R92, R93, R96, R100). -/
def State.sweepAtRest (s : State) : State :=
  let w := s.sweep.record
  match w.state with
  | .travelling => s.setSweep { s.sweep with record := { w with state := .awaiting, awaiting := true }, deadline := true }
  | .returning => s.endSweep .hit
  | .stopping => s.endSweep .stopped
  | .none | .awaiting | .ended => s

/-- The best figure after one more is judged (R95, R96). -/
def SweepRecord.better (w : SweepRecord) (value : Nat) : Option Best :=
  match w.best with
  | some b =>
    if b.value < value then some ⟨value, w.stopPosition.getD 0, w.stopNumber.getD 0⟩ else some b
  | none => some ⟨value, w.stopPosition.getD 0, w.stopNumber.getD 0⟩

/-- Whether a figure is a hit; PEAK is judged against the best value held before it (R95, R96). -/
def SweepRecord.isHit (w : SweepRecord) (value : Nat) : Bool :=
  match w.params.condition with
  | .reach threshold => decide (threshold ≤ value)
  | .peak margin =>
    match w.best with
    | some b => decide (value + margin ≤ b.value)
    | none => false

/-- A contrast figure taken at the awaited stop is judged (R94 to R97, R99): the state and the judgment. -/
def State.judge (s : State) (value : Nat) : State × Judgment :=
  let u := s.sweep.leaveAwaiting
  let before := u.record
  let w : SweepRecord :=
    { before with stopsJudged := before.stopsJudged + 1, lastValue := some value, best := before.better value }
  let t := s.setSweep { u with record := w }
  if w.releasePending then (t.endSweep .released, .released)
  else if before.isHit value then
    match w.params.condition with
    | .reach _ => (t.endSweep .hit, .hit)
    | .peak _ =>
      ((t.setSweepRecord { w with state := .returning }).internalMove .focus ((w.best.map fun b => b.position).getD 0) .sweep,
        .hit)
  else
    let n := t.nextStop
    if n.2 then (n.1, .nextStop) else (n.1.endSweep .miss, .miss)

/-- AXIS_STOP on FOCUS while a sweep runs, at the unit (R100); the axis is stopped beside it under R60. -/
def State.stopSweep (s : State) : State :=
  match s.sweep.record.state with
  | .travelling | .returning => s.setSweepRecord { s.sweep.record with state := .stopping }
  | .awaiting => s.endSweep .stopped
  | .none | .stopping | .ended => s

/-- HALF let go during a half-press sweep (R99). -/
def State.releaseSweep (s : State) : State :=
  if s.sweep.record.state.runs ∧ s.sweep.record.origin = .half then
    s.setSweepRecord { s.sweep.record with releasePending := true }
  else s

end Sys2Proof.Machine
end

