-- ==== Sys2Proof/Machine/MotionOps.lean ====
section
/-! DEFINITION. Decision points, settle expiries, stops and the clearing of an axis, on the whole state (03, 04), and the
presses of the release switch, which may begin a sweep (09). -/

namespace Sys2Proof.Machine

/-! ### The end of a move (R50) -/

/-- A settle expires: the axis comes to IDLE, and the end of the move is reported according to its mover (R50, R53, R58), with
owed tracking applied as FOCUS enters IDLE (R81). -/
def State.settleExpired (s : State) (a : AxisId) : State :=
  let r := s.axis a
  let t := s.setAxis a r.settled
  match a with
  | .zoom => if r.ending = .homed then t.homingDone .zoom else t
  | .focus =>
    let u := if r.ending = .homed then t.homingDone .focus else t
    let v := if r.mover = some .sweep then u.sweepAtRest else u
    v.applyOwed
  | .iris => if r.mover = some .exposure ∨ r.joined = some .exposure then t.irisSettled else t

/-- A settle timer of 0 expires within the event that starts it (R45; log 11). -/
def State.settleNow (s : State) (a : AxisId) : State :=
  if (s.axis a).state = .settling ∧ (s.axis a).settleTimer = some 0 then s.settleExpired a else s

/-- Every settle of 0 that the event has started expires; FOCUS before IRIS, since the end of a sweep may arm a slot. -/
def State.settleZero (s : State) : State := ((s.settleNow .zoom).settleNow .focus).settleNow .iris

/-! ### Decision points (R46, R52) -/

/-- A CLEAR stop is served, or CLEAR brings the axis to rest (R69). FOCUS then takes what is owed to it (R81). -/
def State.clearAxisRest (s : State) (a : AxisId) : State :=
  let t := s.setAxis a (s.axis a).clearRest
  if a = .focus then t.applyOwed else t

/-- The decision point of a move (R46). -/
def State.decisionPoint (s : State) (a : AxisId) : State :=
  let r := s.axis a
  match r.stopPending with
  | .stop => s.setAxis a (r.haltHere .stopped)
  | .clear => (s.setAxis a { r with backlashRemaining := 0 }).clearAxisRest a
  | .none => if r.target = r.position then s.setAxis a { r with backlashRemaining := 0 }.settle else s.stepAxis a

/-- The homing decision of an axis (R52). -/
def State.homingDecision (s : State) (a : AxisId) (sensor : Bool) : State :=
  s.setAxis a ((s.axis a).homingDecision (homeLimit a) sensor)

/-- The level of a home sensor line, as last read (10 §10.7). -/
def State.readHome (s : State) (a : AxisId) (sensor : Bool) : State :=
  match a with
  | .zoom => s.setPins { s.pins with homeZoom := sensor }
  | .focus => s.setPins { s.pins with homeFocus := sensor }
  | .iris => s.setPins { s.pins with homeIris := sensor }

/-! ### Host moves and stops (R55, R56, R60, R76, R77) -/

/-- A host move on FOCUS stands in place of owed tracking (R81). -/
def State.dropOwed (s : State) (a : AxisId) : State :=
  match a with
  | .focus => s.setTravel s.travel.clearOwed
  | .zoom | .iris => s

/-- A host move on an axis in IDLE or SETTLING (R55). A ZOOM homing interrupted in its settle is handed on at once (R53); a
FOCUS homing so interrupted asks for no clamp move, since the checked target lies within the limits (R82). -/
def State.beginHostMove (s : State) (a : AxisId) (target : Nat) : State :=
  let t := if a = .zoom ∧ s.zoom.settlingHome then s.homingDone .zoom else s
  (t.setAxis a ((t.axis a).begin target .host)).startMove a

/-- A target lies beyond the edge at which the zoom waits (R76). -/
def State.beyondEdge (s : State) (target : Nat) : Bool :=
  let p := s.zoom.position.getD 0
  match s.travel.crossing with
  | some .awayFromHome => decide (p < target)
  | some .towardHome => decide (target < p)
  | none => false

/-- A host move of ZOOM in WAIT_MAP (R76). -/
def State.waitingMove (s : State) (target : Nat) : State :=
  if s.beyondEdge target then s.setAxis .zoom { s.zoom with target := some target }
  else
    let t := (s.setTravel s.travel.endWait).setAxis .zoom { s.zoom with state := .moving, target := some target }
    (t.resolve .zoomStep).decisionPoint .zoom

/-- A host move that has passed its checks (R54 to R56, R76). WAIT_MAP occurs on ZOOM alone (R44). -/
def State.hostMove (s : State) (a : AxisId) (target : Nat) : State :=
  let t := s.dropOwed a
  match (t.axis a).state with
  | .idle | .settling => t.beginHostMove a target
  | .waking | .moving => t.setAxis a ((t.axis a).retarget target .host)
  | .waitMap => if a = .zoom then t.waitingMove target else t
  | .unhomed | .homing | .fault => t

/-- What AXIS_STOP does at the axis itself (R60, R77). A second stop changes nothing, and a stop of kind CLEAR that is pending
stands (log 13). -/
def State.stopAxis (s : State) (a : AxisId) : State :=
  let r := s.axis a
  match r.state with
  | .unhomed | .idle | .fault | .settling => s
  | .waking => s.setAxis a (r.settleHere .stopped)
  | .moving => if r.stopPending = .none then s.setAxis a { r with stopPending := .stop } else s
  | .homing =>
    if r.wakeTimer.isSome then s.setAxis a (r.unhome.post .stopped none none)
    else if r.stopPending = .none then s.setAxis a { r with stopPending := .stop }
    else s
  | .waitMap => if a = .zoom then s.zoomEndWait .stopped else s

/-- Whether the end of a stop taken now is posted to the host, which is answered STARTED (R60, R61). -/
def AxisRecord.stopPosts (r : AxisRecord) : Bool :=
  match r.state with
  | .unhomed | .idle | .fault | .settling => false
  | .waking | .moving => r.mover = some .host && r.stopPending ≠ .clear
  | .homing => r.stopPending ≠ .clear
  | .waitMap => true

/-- The stop is one of a running sweep, and is handed to its unit (R61). -/
def State.stopsSweep (s : State) (a : AxisId) : Bool := a = .focus && s.sweep.record.state.runs

/-- The stop is one of a moving exposure iris, and is handed to the release (R61, R162). -/
def State.stopsExposure (s : State) (a : AxisId) : Bool :=
  a = .iris && (s.iris.state = .waking || s.iris.state = .moving) &&
    (s.iris.mover = some .exposure || s.iris.joined = some .exposure)

/-! ### CLEAR at the axes (R69) -/

/-- The Axis Controller's part of CLEAR at one axis (R69), with the zoom's wait ended (R86). A release of the coils that standby
entry left pending on a moving FOCUS stands (log 38). -/
def State.clearAxis (s : State) (a : AxisId) : State :=
  let r := s.axis a
  let t := match r.state with
    | .unhomed | .idle | .fault => s
    | .waking => s.clearAxisRest a
    | .moving => s.setAxis a { r with stopPending := .clear }
    | .settling =>
      let u := s.clearAxisRest a
      if r.settlingHome then u.homingDone a else u
    | .waitMap => if a = AxisId.zoom then (s.setTravel s.travel.endWait).clearAxisRest a else s
    | .homing =>
      if r.wakeTimer.isSome then s.setAxis a r.unhome else s.setAxis a { r with stopPending := .clear }
  let u := t.axis a
  t.setAxis a { u with completion := { u.completion with pending := false }, ownership := .none }

/-- The Axis Controller's part of standby entry at one axis (R70, R181): what a load has just begun is brought to rest as CLEAR
does, and the coils are released, at once or when the step in progress has ended. -/
def State.standbyAxis (s : State) (a : AxisId) : State :=
  let r := s.axis a
  match r.state with
  | .moving => s.setAxis a { r with stopPending := .clear, releaseAtRest := true, holdTimer := none }
  | .waking | .settling => s.setAxis a r.rest.letGo
  | .unhomed | .idle | .fault | .homing | .waitMap => s.setAxis a r.letGo

/-- The Axis Controller's part of standby entry (R70, R181), after the loads in flight (log 9). -/
def State.standbyAxes (s : State) : State :=
  ((s.deliverLoads.standbyAxis .zoom).standbyAxis .focus).standbyAxis .iris

/-! ### Metering and the entry to standby (R109, R111, R113, R121, R181) -/

/-- A sweep ends: running is cleared, and zone, phase and reference time become absent (R110, R113). -/
def MeterUnit.endSweep (m : MeterUnit) : MeterUnit :=
  { m with running := false, zone := none, phase := none, referenceTime := none }

/-- METER_STOP and its like (R113, R121, R181): a running sweep is abandoned. -/
def MeterUnit.stop (m : MeterUnit) : MeterUnit := if m.running then m.endSweep else m

/-- A trigger is accepted: a metering sweep begins with the first zone's reference phase (R109, R106). -/
def MeterUnit.begin (m : MeterUnit) : MeterUnit :=
  { m with running := true, working := some ⟨m.setup.first, m.setup.last, m.setup.mode, m.setup.target⟩,
           zone := some m.setup.first, phase := some .reference, referenceTime := none, counter := 0, timeBase := 0 }

/-- A trigger of a kind arrives (R111). -/
def MeterUnit.trigger (m : MeterUnit) (k : Trigger) : MeterUnit :=
  if m.enabled ∧ m.running = false ∧ m.setup.trigger = k then m.begin else m

/-- The Metering Unit's part of standby entry (R121, R181): a sweep that a frame-start pulse has begun since is ended. -/
def MeterUnit.enterStandby (m : MeterUnit) : MeterUnit := { m.stop with enabled := false }

/-! ### The release switch (R153, R168, R169) -/

/-- The half-press lock (R127). -/
def State.halfPressLock (s : State) : State :=
  let lock := if s.meter.setup.trigger = .half ∧ s.meter.enabled then .pending else s.exposure.scene.toLock
  let t := s.setExposure { s.exposure with lock := lock }
  if lock = .pending then t.setRelease { t.release with lockAwaited := true } else t

/-- The half-press sweep (R91, R153), checked as the hand-offs in flight to the record and to FOCUS leave them (log 33). -/
def State.halfPressSweep (s : State) : State :=
  let u := s.takeHandoffs
  match u.sweepRefusal with
  | some _ => s.setRelease { s.release with sweepOutcome := some .afSkipped }
  | none =>
    let t := u.beginSweep .half u.sweep.preset
    match t.2 with
    | some o => t.1.setRelease { t.1.release with sweepOutcome := some (.ended o) }
    | none => t.1.setRelease { t.1.release with sweepOutcome := some .running, sweepOwed := true }

/-- A half-press (R153). -/
def State.halfPress (s : State) : State :=
  let t := s.setRelease { s.release with sweepOwed := false, lockAwaited := false, awaitingFocus := false, sweepOutcome := none }
  let t := t.setMeter (t.meter.trigger .half)
  let t := if t.release.setup.aeLockOnHalf then t.halfPressLock else t
  let t := if t.release.setup.afOnHalf then t.halfPressSweep else t
  if t.release.state = .finishing then t else t.setRelease { t.release with state := t.release.prepared }

/-- FULL let go (R168). -/
def State.fullLetGo (s : State) : State :=
  let r := s.release
  if r.state = .firing then
    if r.awaitingFocus then s.setRelease (({ r with awaitingFocus := false } : Release).endBurst .released)
    else if r.stallTimer then s.setRelease (({ r with stallTimer := false } : Release).endBurst .released)
    else
      match r.burst.current with
      | some i =>
        let t := r.slots[i]
        if t.state = .armed ∧ (t.shot.map fun x => x.burstIndex).getD 0 ≠ 0 then s.cancelArm i none .released
        else s.setRelease { r.endBurst .released with state := .finishing, finishingOn := some i }
      | none => s.setRelease (r.endBurst .released)
  else s

/-- HALF let go (R169). -/
def State.halfLetGo (s : State) : State :=
  let t := s.setExposure { s.exposure with lock := .none }
  let t := if t.release.sweepOwed then t.releaseSweep else t
  let r : Release := { t.release with lockAwaited := false }
  t.setRelease { r with state := match r.state with
    | .preparing | .ready => .opened
    | .opened | .firing | .finishing => r.state }

/-! ### The end of the entry to standby (R181) -/

/-- The Release and Slot Controller's part (R174): a pressed switch is taken as let go. -/
def State.standbyRelease (s : State) : State :=
  let t := match s.release.position with
    | .full => s.fullLetGo.halfLetGo
    | .half => s.halfLetGo
    | .none => s
  t.setRelease { t.release with halfTaken := false, fullTaken := false, state := .opened }

/-- The parts of the entry to standby that wait are taken (R181; log 9): by the Axis Controller, by the Metering Unit, by the
Exposure Unit, which passes handed over reach first (R136), and by the Release and Slot Controller. -/
def State.finishEntry (s : State) : State :=
  if s.entering then
    let t := s.standbyAxes
    (((t.setMeter t.meter.enterStandby).setEntering false).takeScenes).standbyRelease
  else s

/-! ### Waking (R182) -/

/-- The parts of the waking, after those of the entry that still wait (R181, R182; log 9): the standby state is cleared, the record is
resolved with source WAKE (R43), and the Stabilizer wakes (R150); a free choice takes the resolver's notice to the Stabilizer
first (log 22). -/
def State.wakeUp (s : State) : State :=
  let s := s.finishEntry
  let t := (s.setStandby false).resolve .wake
  let t := if Config.freeChoice s.freeCount then t.flushStab else t
  (t.setStab t.stab.leaveStandby).setFreeCount (s.freeCount + 1)

end Sys2Proof.Machine
end

