-- ==== Sys2Proof/Machine/Axis.lean ====
section
/-! DEFINITION. The requests and timers of the Axis Controller, the refill timer, and the loads that the focus group tracks
(03, 04). -/

namespace Sys2Proof.Machine

/-! ### Requests -/

/-- The checks 2 to 5 of AXIS_HOME, in order (R51). -/
def State.homeRefusal (s : State) (a : AxisId) : Option Result :=
  let r := s.axis a
  if r.completion.pending then some .uncollected
  else if !r.state.resting then some .busy
  else if r.ownership ≠ .none ∨ (a = .zoom ∧ s.resolver.pinned) then some .busy
  else if s.holdOff then some .holdOff
  else none

/-- The start of homing is reported to the Band Resolver for ZOOM (R51, R33); for FOCUS it gives up owed tracking (R81). -/
def State.reportHoming (s : State) (a : AxisId) : State :=
  match a with
  | .zoom => s.unresolve
  | .focus => s.dropOwed .focus
  | .iris => s

/-- Homing starts (R51, R52): the wake time of RELEASED coils comes before the first decision. -/
def State.beginHoming (s : State) (a : AxisId) (sensor : Bool) : State :=
  let t := (s.setAxis a (s.axis a).startHoming).reportHoming a
  if (t.axis a).hold = .released then t.setAxis a ((t.axis a).wake .homing)
  else (t.readHome a sensor).homingDecision a sensor

/-- AXIS_HOME (R51). -/
def axisHomeOwner (sensor : Bool) (a : AxisId) (s : State) : State × Answer :=
  match s.homeRefusal a with
  | some r => (s, plain r)
  | none => ((s.beginHoming a sensor).settleZero, plain .started)

/-- The checks 2 to 8 of AXIS_MOVE, in order (R54). -/
def State.moveRefusal (s : State) (a : AxisId) (target : Nat) : Option Result :=
  let r := s.axis a
  if r.state = .unhomed ∨ r.state = .homing then some .notHomed
  else if r.state = .fault then some .axisFault
  else if r.completion.pending then some .uncollected
  else if r.ownership ≠ .none then some .busy
  else if s.holdOff then some .holdOff
  else if a = .focus ∧ s.resolver.record.resolved = false then some .noLens
  else if a = .focus ∧ s.resolver.record.facts.within target = false then some .outOfLimits
  else if a = .zoom ∧ s.resolver.pinned then some .busy
  else none

/-- AXIS_MOVE (R54 to R56, R76). -/
def axisMoveOwner (x : AxisId × Nat) (s : State) : State × Answer :=
  match s.moveRefusal x.1 x.2 with
  | some r => (s, plain r)
  | none => ((s.hostMove x.1 x.2).settleZero, plain .started)

/-- What AXIS_STOP does, at the axis and at the owner of an internal move (R60, R61). -/
def State.stopMove (s : State) (a : AxisId) : State :=
  let t := s.stopAxis a
  if s.stopsSweep a then t.stopSweep
  else if s.stopsExposure a then t.irisStopped
  else t

/-- Whether the end of the stop is posted to the host: a running sweep posts if the host began it (R60, R61, R100). -/
def State.stopStarted (s : State) (a : AxisId) : Bool :=
  if s.stopsSweep a then decide (s.sweep.record.origin = .host) else (s.axis a).stopPosts

/-- AXIS_STOP (R60, R61, R77, R100). -/
def axisStopOwner (a : AxisId) (s : State) : State × Answer :=
  ((s.stopMove a).settleZero, if s.stopStarted a then plain .started else done [])

/-- AXIS_COLLECT (R64). -/
def axisCollectOwner (a : AxisId) (s : State) : State × Answer :=
  let r := s.axis a
  if r.completion.pending then
    (s.setAxis a { r with completion := { r.completion with pending := false } }, done (r.completion.collectData a))
  else (s, plain .none)

/-- A new profile on an axis record (R66): a hold-release timer that runs is restarted for the new duration, or stopped. -/
def AxisRecord.withProfile (r : AxisRecord) (p : Profile) : AxisRecord :=
  { r with
    profile := p
    holdTimer := r.holdTimer.bind fun _ => if p.holdRelease = 0 then none else some p.holdRelease }

/-- AXIS_PROFILE (R66, R67). -/
def axisProfileOwner (x : AxisId × Profile) (s : State) : State × Answer :=
  if s.zoom.state.resting ∧ s.focus.state.resting ∧ s.iris.state.resting then
    ((s.setAxis x.1 ((s.axis x.1).withProfile x.2)).setHoldOff true, done [])
  else (s, plain .busy)

/-- AXIS_READ (R65). -/
def axisReadOwner (a : AxisId) (s : State) : State × Answer := (s, done (s.axisData a))

/-- AXIS_HOME (R51 to R53). -/
def execAxisHome (p : Bytes) (sensor : Bool) (s : State) : Out :=
  request false (withParams axisParam p (axisHomeOwner sensor)) s

/-- AXIS_MOVE (R54). -/
def execAxisMove (p : Bytes) (s : State) : Out := request false (withParams moveParams p axisMoveOwner) s

/-- AXIS_STOP (R60). -/
def execAxisStop (p : Bytes) (s : State) : Out := request false (withParams axisParam p axisStopOwner) s

/-- AXIS_COLLECT (R64). -/
def execAxisCollect (p : Bytes) (s : State) : Out := request false (withParams axisParam p axisCollectOwner) s

/-- AXIS_PROFILE (R66). -/
def execAxisProfile (p : Bytes) (s : State) : Out := request false (withParams profileParams p axisProfileOwner) s

/-- AXIS_READ (R65), taken in standby (R182). -/
def execAxisRead (p : Bytes) (s : State) : Out := request true (withParams axisParam p axisReadOwner) s

/-! ### Timers -/

/-- The decision that an expiry of the step timer or the wake timer brings to an axis (R46, R49, R52). -/
def State.decideAxis (s : State) (a : AxisId) (sensor : Bool) : State :=
  match (s.axis a).state with
  | .homing => (s.readHome a sensor).homingDecision a sensor
  | .waking | .moving => s.decisionPoint a
  | .unhomed | .idle | .waitMap | .settling | .fault => s

/-- STEP_INTERVAL_EXPIRY (R46, R52). -/
def execStepIntervalExpiry (a : AxisId) (sensor : Bool) (s : State) : Out :=
  match (s.axis a).stepTimer with
  | none => .next s
  | some _ => .next ((s.setAxis a { s.axis a with stepTimer := none }).decideAxis a sensor).settleZero

/-- WAKE_TIMER_EXPIRY (R49, R52). -/
def execWakeTimerExpiry (a : AxisId) (sensor : Bool) (s : State) : Out :=
  match (s.axis a).wakeTimer with
  | none => .next s
  | some _ => .next ((s.setAxis a { s.axis a with wakeTimer := none }).decideAxis a sensor).settleZero

/-- SETTLE_TIMER_EXPIRY (R50, R53). -/
def execSettleTimerExpiry (a : AxisId) (s : State) : Out :=
  if (s.axis a).state = .settling ∧ (s.axis a).settleTimer.isSome then .next (s.settleExpired a).settleZero else .next s

/-- HOLD_RELEASE_EXPIRY (R50, R60): the coils are let go and the state is kept. -/
def execHoldReleaseExpiry (a : AxisId) (s : State) : Out :=
  if (s.axis a).holdTimer.isSome then .next (s.setAxis a (s.axis a).letGo) else .next s

/-- PROFILE_HOLD_OFF_EXPIRY (R67). -/
def execProfileHoldOffExpiry (s : State) : Out := .next (s.setHoldOff false)

/-- REFILL_TIMER_EXPIRY (R75). -/
def execRefillTimerExpiry (s : State) : Out :=
  if s.zoom.state = .waitMap ∧ s.travel.refillTimer then .next (s.zoomEndWait .mapMiss).settleZero else .next s

/-- TRACKING_LOAD (R78 to R82): the oldest load in flight is tracked. -/
def execTrackingLoad (s : State) : Out :=
  match s.handoffs.loads with
  | [] => .next s
  | l :: rest => .next ((s.setHandoffs { s.handoffs with loads := rest }).track l).settleZero

end Sys2Proof.Machine
end

