-- ==== Sys2Proof/Machine/Exposure.lean ====
section
/-! DEFINITION. The requests of the Exposure Unit and the computation of the scene (07). -/

namespace Sys2Proof.Machine

/-- EXPOSURE_SETUP (R125): the compensation takes effect on a valid scene at once. -/
def exposureSetupOwner (u : ExposureSetup) (s : State) : State × Answer :=
  (s.setExposure { s.exposure with setup := u, scene := s.exposure.scene.recompensate u.compensation }, done [])

/-- AE_LOCK (R126). -/
def aeLockOwner (_ : Unit) (s : State) : State × Answer :=
  let l := s.exposure.scene.toLock
  (s.setExposure { s.exposure with lock := l }, done l.bytes)

/-- AE_UNLOCK (R126). -/
def aeUnlockOwner (_ : Unit) (s : State) : State × Answer :=
  (s.setExposure { s.exposure with lock := .none }, done [])

/-- The unit after a part of a program, with the data of its answer: the points staged and the mark incomplete (0), or the new
point count and the mark installed (1) (R129, log 6). -/
def ExposureUnit.takePart (e : ExposureUnit) (total : Nat) (staged : List Point) : ExposureUnit × Bytes :=
  if staged.length = total then ({ e with program := staged, staging := none }, u8 staged.length ++ u8 1)
  else ({ e with staging := some ⟨total, staged⟩ }, u8 staged.length ++ u8 0)

/-- PROGRAM_WRITE (R129): a part that fails a check discards the staging. -/
def programWriteOwner (part : ProgramPart) (s : State) : State × Answer :=
  match s.exposure.stagePart part with
  | none => (s.setExposure { s.exposure with staging := none }, plain .badParameter)
  | some staged =>
    let r := s.exposure.takePart part.total staged
    (s.setExposure r.1, done r.2)

/-- EXPOSURE_READ (R134). -/
def exposureReadOwner (_ : Unit) (s : State) : State × Answer := (s, done s.exposure.bytes)

/-- EXPOSURE_SETUP (R125). -/
def execExposureSetup (p : Bytes) (s : State) : Out := request false (withParams exposureParams p exposureSetupOwner) s

/-- AE_LOCK (R126). -/
def execAeLock (p : Bytes) (s : State) : Out := request false (withParams noParams p aeLockOwner) s

/-- AE_UNLOCK (R126). -/
def execAeUnlock (p : Bytes) (s : State) : Out := request false (withParams noParams p aeUnlockOwner) s

/-- PROGRAM_WRITE (R129, R177). -/
def execProgramWrite (p : Bytes) (s : State) : Out := request false (withParams programParams p programWriteOwner) s

/-- EXPOSURE_READ (R134). -/
def execExposureRead (p : Bytes) (s : State) : Out := request false (withParams noParams p exposureReadOwner) s

/-- SCENE_COMPUTE (R123): the oldest pass handed over is taken. -/
def execSceneCompute (s : State) : Out :=
  match s.handoffs.scenes with
  | [] => .next s
  | z :: rest => .next ((s.setHandoffs { s.handoffs with scenes := rest }).takePass z)

end Sys2Proof.Machine
end

