-- ==== Sys2Proof/Machine/LensMap.lean ====
section
/-! DEFINITION. The eight requests of the Lens Map and the drain of its queue (01). -/

namespace Sys2Proof.Machine

/-- MAP_READ (R9): after the parameter check, UPDATES_PENDING while the queue holds updates. -/
def mapReadOwner (i : Fin 32) (s : State) : State × Answer :=
  if s.map.queue = [] then (s, done (s.map.entries[i]).bytes) else (s, plain .updatesPending)

/-- MAP_PROBE (R10). -/
def mapProbeOwner (q : Pair) (s : State) : State × Answer :=
  if s.map.queue = [] then
    match s.map.lookup q with
    | some i => (s, done (u8 i.val))
    | none => (s, plain .notFound)
  else (s, plain .updatesPending)

/-- MAP_LOCK (R15): the cursor goes to 31 when the count passes it, and the map is to examine its head again (log 28). -/
def mapLockOwner (count : Fin 17) (s : State) : State × Answer :=
  ((s.setMap { s.map with
      lockCount := count.val
      cursor := if s.map.cursor.val < count.val then 31 else s.map.cursor }).postDrain, done [])

/-- MAP_STATUS (R16): the rejection-unread mark is read and cleared. -/
def mapStatusOwner (_ : Unit) (s : State) : State × Answer :=
  (s.setMap { s.map with rejectionUnread := false }, done s.mapStatusData)

/-- MAP_READ (R8, R9). -/
def execMapRead (p : Bytes) (s : State) : Out := request false (withParams (finParam 32) p mapReadOwner) s

/-- MAP_PROBE (R8, R10). -/
def execMapProbe (p : Bytes) (s : State) : Out := request false (withParams probeParams p mapProbeOwner) s

/-- MAP_WRITE (R8, R11, R17). -/
def execMapWrite (p : Bytes) (s : State) : Out :=
  request false (withParams writeParams p fun x => takeUpdate (.write x.1 x.2)) s

/-- MAP_INSTALL (R8, R12, R17). -/
def execMapInstall (p : Bytes) (s : State) : Out :=
  request false (withParams entryParam p fun e => takeUpdate (.install e)) s

/-- MAP_RETIRE (R8, R13, R17). -/
def execMapRetire (p : Bytes) (s : State) : Out :=
  request false (withParams (finParam 32) p fun i => takeUpdate (.retire i)) s

/-- MAP_PURGE (R8, R14, R17). -/
def execMapPurge (p : Bytes) (s : State) : Out :=
  request false (withParams (finParam 16) p fun c => takeUpdate (.purge c.val)) s

/-- MAP_LOCK (R8, R15). -/
def execMapLock (p : Bytes) (s : State) : Out := request false (withParams (finParam 17) p mapLockOwner) s

/-- MAP_STATUS (R16), taken in standby (R182). -/
def execMapStatus (p : Bytes) (s : State) : Out := request true (withParams noParams p mapStatusOwner) s

/-- QUEUE_DRAIN (R19): a report that the map is to examine its head is taken. -/
def execQueueDrain (s : State) : Out :=
  if s.handoffs.drains = 0 then .next s
  else .next (s.setHandoffs { s.handoffs with drains := s.handoffs.drains - 1 }).drained.settleZero

end Sys2Proof.Machine
end

