-- ==== Sys2Proof/WellFormed.lean ====
section
/-! DEFINITION. Which commands can be sent: the parameter bytes of one frame (R175), the first byte of a request
transaction, and the counts that the measurement events and transfers can carry. An ill-formed command has a meaning too
(log 2): it names an event that does not occur, and changes nothing that the spec does not say. -/

namespace Sys2Proof

/-- The parameters of one request frame: 0 to 60 bytes (R175). -/
def paramsWellFormed (p : Bytes) : Bool := decide (p.length ≤ 60)

/-- A request transaction carries a first byte, and it is not 0 (R175). -/
def requestTransactionWellFormed (frame : Bytes) : Bool :=
  match frame with
  | [] => false
  | b :: _ => decide (b ≠ 0#8)

/-- The commands that can be sent. -/
def Instr.wellFormed : Instr → Bool
  | .requestFrameRejected f | .requestFrameDropped f => requestTransactionWellFormed f
  | .readTransaction n => decide (1 ≤ n)
  | .referenceTargetReached t => decide (1 ≤ t ∧ t < Config.timeBaseLimit)
  | .timeBaseExhausted n => decide (n ≤ 65535)
  | .sensorPhaseEnd n => decide (n ≤ Config.counterLimit)
  | .gyroTransferDiscarded t => decide (t.length ≠ 4)
  | .mapRead p | .mapProbe p | .mapWrite p | .mapInstall p | .mapRetire p | .mapPurge p | .mapLock p
  | .mapStatus p | .setMode p | .readLens p | .axisHome p _ | .axisMove p | .axisStop p | .axisCollect p
  | .axisProfile p | .axisRead p | .sweepStart p | .sweepPreset p | .sweepContrast p | .sweepRead p
  | .meterSetup p | .meterEnable p | .meterStart p | .meterStop p | .meterRead p | .meterClear p
  | .meterReference p | .exposureSetup p | .aeLock p | .aeUnlock p | .programWrite p | .exposureRead p
  | .stabSetup p | .stabRead p | .shoot p | .slotDeveloped p | .slotStored p | .slotDiscard p | .slotRead p
  | .storeCapacity p | .releaseSetup p | .sizeTableWrite p | .releaseRead p | .status p | .clear p
  | .standby p | .wake p => paramsWellFormed p
  | .powerOnReset _ _ _ _ | .emptyTransaction | .queueDrain | .updateReport | .accessorySample _ _
  | .refillTimerExpiry | .pinReleaseNotice | .stepIntervalExpiry _ _ | .wakeTimerExpiry _ _
  | .settleTimerExpiry _ | .holdReleaseExpiry _ | .profileHoldOffExpiry | .trackingLoad
  | .contrastDeadlineExpiry | .frameStartPulse | .sceneCompute | .gyroSample _ _ _ _
  | .silenceTimerExpiry | .stabLoadNotice | .stabUnresolvedNotice | .switchLineChange _ _
  | .switchDebounceExpiry _ | .steadyWaitExpiry | .steadyNotice | .exposureTimerExpiry
  | .stallTimerExpiry | .ownerPlacesAnswer => true

end Sys2Proof
end

