-- ==== Sys2Proof/Machine/Link.lean ====
section
/-! DEFINITION. The events of the control link that no owner takes: frames turned away or dropped, reads, and the placing of an
answer (10). -/

namespace Sys2Proof.Machine

/-- The answer that the Link Interface itself gives to a request transaction at steps 1 to 4 of R175; none when the frame is
taken. -/
def State.linkAnswer (s : State) (frame : Bytes) : Option Result :=
  match judgeFrame frame with
  | .malformed | .badCheck => some .linkError
  | .sound code p =>
    if (requestOfCode code p false).isNone then some .unknownRequest
    else if s.standby && !takenInStandby code then some .standby
    else none

/-- REQUEST_FRAME_REJECTED (R175): in FREE the answer is placed at once; in WORKING and ANSWERING the frame is dropped
unjudged (R176). A frame that would be taken is not this event (log 2). -/
def execRequestFrameRejected (frame : Bytes) (s : State) : Out :=
  if requestTransactionWellFormed frame then
    match s.link with
    | .free =>
      match s.linkAnswer frame with
      | some r => .next (s.setLink (.answering (plain r) false))
      | none => .next s
    | .working _ _ | .answering _ _ => .next (dropFrame s)
  else .next s

/-- EMPTY_TRANSACTION (R175): no effect in any link state. -/
def execEmptyTransaction (s : State) : Out := .next s

/-- REQUEST_FRAME_DROPPED (R176): the LOST mark. -/
def execRequestFrameDropped (frame : Bytes) (s : State) : Out :=
  if requestTransactionWellFormed frame then .next (dropFrame s) else .next s

/-- The bytes that the spec does not state after a whole answer frame (R176; log 18): free values. -/
def freeBytes (count start : Nat) : Bytes := (List.range count).map fun k => Config.freeByte (start + k)

/-- The bytes sent on the `count` bytes that follow the host's 0 while an answer frame waits (R176). -/
def State.answerBytes (s : State) (frame : Bytes) (count : Nat) : Bytes :=
  frame.take count ++ freeBytes (count - frame.length) s.freeCount

/-- READ_TRANSACTION (R176), of `carried` bytes from the host: the first is the 0, the answer goes out on the rest. -/
def execReadTransaction (carried : Nat) (s : State) : Out :=
  if carried = 0 then .next s
  else
    let count := carried - 1
    match s.link with
    | .answering a lost =>
      let frame := answerFrame a lost
      let t := (s.setSent (s.answerBytes frame count)).setFreeCount (s.freeCount + (count - frame.length))
      .next (if frame.length ≤ count then t.setLink .free else t)
    | .free | .working _ _ => .next (s.setSent (List.replicate count 0#8))

/-- OWNER_PLACES_ANSWER (R176): the answer waits to be read, with the LOST mark that the link held for it. The answer to STANDBY
is placed once every block has taken its part of the entry (R181). -/
def execOwnerPlacesAnswer (s : State) : Out :=
  match s.link with
  | .working a lost => .next (s.finishEntry.setLink (.answering a lost))
  | .free | .answering _ _ => .next s

end Sys2Proof.Machine
end

