-- ==== Sys2Proof/Machine/Metering.lean ====
section
/-! DEFINITION. The requests of the Metering Unit, its frame-start line and the ends of its measurement phases (06). -/

namespace Sys2Proof.Machine

/-! ### The measurement of a zone (R106 to R110) -/

/-- A zone measurement begins with its reference phase (R106). -/
def MeterUnit.beginZone (m : MeterUnit) (z : Fin 8) : MeterUnit :=
  { m with zone := some z, phase := some .reference, referenceTime := none, counter := 0, timeBase := 0 }

/-- The sensor phase begins with a reference time (R106, R107). -/
def MeterUnit.beginSensor (m : MeterUnit) (time : Nat) : MeterUnit :=
  { m with phase := some .sensor, referenceTime := some time, counter := 0 }

/-- The value of an OK count: sixteen times the place of its leading one, plus the four bits below it (R107). -/
def okValue (count : Nat) : Nat :=
  let k := count.log2
  16 * k + (count - 2 ^ k) / 2 ^ (k - 4)

/-- The result of a sensor phase that counted `count` pulses (R107). -/
def judgeCount (count : Nat) : ZoneResult :=
  if 16777215 < count then ⟨.over, none⟩
  else if 16 ≤ count then ⟨.ok, some (okValue count)⟩
  else ⟨.under, none⟩

/-- A result written over a zone record (R108). -/
def ZoneRecord.write (z : ZoneRecord) (r : ZoneResult) : ZoneRecord := ⟨r, true, z.overwritten || z.fresh⟩

/-- The set of results handed over for a working range (R114). -/
def MeterUnit.passResults (m : MeterUnit) (w : Working) : Vector ZoneResult 8 :=
  Vector.ofFn fun z : Fin 8 => if w.first ≤ z ∧ z ≤ w.last then (m.zones[z]).result else ⟨.none, none⟩

/-- Steps 2 to 4 of a completed pass (R110). -/
def MeterUnit.afterPass (m : MeterUnit) (w : Working) : MeterUnit :=
  let n : MeterUnit := { m with notice := m.notice || m.setup.notify }
  if w.mode = .continuous ∧ n.enabled then n.beginZone w.first else n.endSweep

/-- A zone-measured event (R108, R110, R119). -/
def State.zoneMeasured (s : State) (w : Working) (z : Fin 8) (r : ZoneResult) : State :=
  let m : MeterUnit := { s.meter with zones := put s.meter.zones z ((s.meter.zones[z]).write r) }
  if h : z < w.last then s.setMeter (m.beginZone ⟨z.val + 1, by omega⟩)
  else
    let t := s.setMeter (m.afterPass w)
    if m.reference then t else t.postScene (m.passResults w)

/-- The working values and the zone of a measurement in the given phase, while a sweep runs. -/
def MeterUnit.inPhase (m : MeterUnit) (p : Phase) : Option (Working × Fin 8) :=
  if m.running ∧ m.phase = some p then
    match m.working, m.zone with
    | some w, some z => some (w, z)
    | _, _ => none
  else none

/-! ### Requests -/

/-- METER_SETUP (R105). -/
def meterSetupOwner (u : MeterSetup) (s : State) : State × Answer :=
  if s.meter.enabled then (s, plain .busy) else (s.setMeter { s.meter with setup := u }, done [])

/-- METER_ENABLE (R112). -/
def meterEnableOwner (on : Bool) (s : State) : State × Answer := (s.setMeter { s.meter with enabled := on }, done [])

/-- METER_START (R111). -/
def meterStartOwner (_ : Unit) (s : State) : State × Answer :=
  if s.meter.enabled = false ∨ s.meter.setup.trigger ≠ .request then (s, plain .wrongState)
  else if s.meter.running then (s, plain .busy)
  else (s.setMeter s.meter.begin, plain .started)

/-- METER_STOP (R113). -/
def meterStopOwner (_ : Unit) (s : State) : State × Answer := (s.setMeter s.meter.stop, done [])

/-- Fresh marks and the notice are cleared by a reading (R115). -/
def MeterUnit.markRead (m : MeterUnit) : MeterUnit :=
  { m with zones := mapTable (fun z => { z with fresh := false }) m.zones, notice := false }

/-- METER_READ (R115). -/
def meterReadOwner (_ : Unit) (s : State) : State × Answer := (s.setMeter s.meter.markRead, done s.meter.bytes)

/-- METER_CLEAR (R116). -/
def meterClearOwner (_ : Unit) (s : State) : State × Answer :=
  (s.setMeter { s.meter with zones := mapTable (fun z => { z with overwritten := false }) s.meter.zones }, done [])

/-- METER_REFERENCE (R118). -/
def meterReferenceOwner (on : Bool) (s : State) : State × Answer :=
  if s.meter.running then (s, plain .busy) else (s.setMeter { s.meter with reference := on }, done [])

/-- METER_SETUP (R105). -/
def execMeterSetup (p : Bytes) (s : State) : Out := request false (withParams meterParams p meterSetupOwner) s

/-- METER_ENABLE (R112). -/
def execMeterEnable (p : Bytes) (s : State) : Out := request false (withParams flagParam p meterEnableOwner) s

/-- METER_START (R111). -/
def execMeterStart (p : Bytes) (s : State) : Out := request false (withParams noParams p meterStartOwner) s

/-- METER_STOP (R113). -/
def execMeterStop (p : Bytes) (s : State) : Out := request false (withParams noParams p meterStopOwner) s

/-- METER_READ (R115). -/
def execMeterRead (p : Bytes) (s : State) : Out := request false (withParams noParams p meterReadOwner) s

/-- METER_CLEAR (R116). -/
def execMeterClear (p : Bytes) (s : State) : Out := request false (withParams noParams p meterClearOwner) s

/-- METER_REFERENCE (R118). -/
def execMeterReference (p : Bytes) (s : State) : Out := request false (withParams flagParam p meterReferenceOwner) s

/-! ### Events -/

/-- FRAME_START_PULSE (R111). -/
def execFrameStartPulse (s : State) : Out := .next (s.setMeter (s.meter.trigger .frame))

/-- REFERENCE_TARGET_REACHED (R106, R119), at a time base count below 1,048,575. -/
def execReferenceTargetReached (timeBase : Nat) (s : State) : Out :=
  match s.meter.inPhase .reference with
  | none => .next s
  | some (w, z) =>
    if 1 ≤ timeBase ∧ timeBase < Config.timeBaseLimit then
      let t := s.setMeter { s.meter with counter := w.target, timeBase := timeBase }
      if s.meter.reference then .next (t.zoneMeasured w z ⟨.ref, some timeBase⟩)
      else .next (t.setMeter (t.meter.beginSensor timeBase))
    else .next s

/-- TIME_BASE_EXHAUSTED (R106): no value, and no sensor phase. -/
def execTimeBaseExhausted (pulses : Nat) (s : State) : Out :=
  match s.meter.inPhase .reference with
  | none => .next s
  | some (w, z) =>
    if pulses ≤ w.target then
      .next ((s.setMeter { s.meter with counter := pulses, timeBase := Config.timeBaseLimit }).zoneMeasured w z
        ⟨.refFault, none⟩)
    else .next s

/-- SENSOR_PHASE_END (R107): the counter stops at 16,777,216. -/
def execSensorPhaseEnd (pulses : Nat) (s : State) : Out :=
  match s.meter.inPhase .sensor with
  | none => .next s
  | some (w, z) =>
    let count := min pulses Config.counterLimit
    .next ((s.setMeter { s.meter with counter := count }).zoneMeasured w z (judgeCount count))

end Sys2Proof.Machine
end

