-- ==== Sys2Proof/Machine/Release.lean ====
section
/-! DEFINITION. The release switch, SHOOT, the exposure's end, the picture slots and the bursts (09). -/

namespace Sys2Proof.Machine

/-! ### The release switch (R152, R174) -/

/-- Whether a contact is closed, as its line was last read (R152). -/
def Pins.closed (p : Pins) : SwitchLine → Bool
  | .half => p.halfClosed
  | .full => p.fullClosed

/-- A contact's line reads a new level. -/
def Pins.setClosed (p : Pins) (line : SwitchLine) (b : Bool) : Pins :=
  match line with
  | .half => { p with halfClosed := b }
  | .full => { p with fullClosed := b }

/-- The taken level of a line: closed or not (R152). -/
def Release.taken (r : Release) : SwitchLine → Bool
  | .half => r.halfTaken
  | .full => r.fullTaken

/-- A line's level is taken. -/
def Release.take (r : Release) (line : SwitchLine) (b : Bool) : Release :=
  match line with
  | .half => { r with halfTaken := b }
  | .full => { r with fullTaken := b }

/-- Whether a line's debounce timer runs. -/
def Release.debouncing (r : Release) : SwitchLine → Bool
  | .half => r.halfDebounce
  | .full => r.fullDebounce

/-- A line's debounce timer is started or stopped. -/
def Release.setDebounce (r : Release) (line : SwitchLine) (b : Bool) : Release :=
  match line with
  | .half => { r with halfDebounce := b }
  | .full => { r with fullDebounce := b }

/-- SWITCH_LINE_CHANGE (R152): a change of level starts the line's debounce timer. -/
def execSwitchLineChange (line : SwitchLine) (closed : Bool) (s : State) : Out :=
  if s.pins.closed line = closed then .next s
  else .next ((s.setPins (s.pins.setClosed line closed)).setRelease (s.release.setDebounce line true))

/-- The taken levels of HALF and FULL. -/
def Release.takeBoth (r : Release) (half full : Bool) : Release := { r with halfTaken := half, fullTaken := full }

/-- A half-press is taken. In standby the part leaves standby first; then the taken HALF level is closed and the position HALF,
whichever line woke the part, and the half-press is handled (R153, R174, R182). Where the entry has not ended, the controller's
part of it comes before all of that and takes the switch as let go (R181, `State.finishEntry`). -/
def State.pressHalf (s : State) : State :=
  if s.standby then
    let t := s.wakeUp
    (t.setRelease (t.release.takeBoth true false)).halfPress
  else s.halfPress

/-- A half-press by the FULL line and the full press taken with it, which finds FULL taken closed (R152, R182). -/
def State.pressBoth (s : State) : State :=
  let t := s.pressHalf
  (t.setRelease { t.release with fullTaken := true }).fullPress

/-- A change of the switch position is taken (R152). -/
def State.positionChanged (s : State) (before after : SwitchPosition) : State :=
  match before, after with
  | .none, .half => s.pressHalf
  | .half, .full => s.fullPress
  | .none, .full => s.pressBoth
  | .full, .half => s.fullLetGo
  | .full, .none => s.fullLetGo.halfLetGo
  | .half, .none => s.halfLetGo
  | .none, .none | .half, .half | .full, .full => s

/-- SWITCH_DEBOUNCE_EXPIRY (R152): a level that differs from the taken one is taken. -/
def execSwitchDebounceExpiry (line : SwitchLine) (s : State) : Out :=
  if s.release.debouncing line then
    let t := s.setRelease (s.release.setDebounce line false)
    if t.pins.closed line = t.release.taken line then .next t
    else
      let u := t.setRelease (t.release.take line (t.pins.closed line))
      .next (u.positionChanged t.release.position u.release.position).settleZero
  else .next s

/-! ### Arming and exposure -/

/-- SHOOT (R156): the last refusal and the burst record are not touched. -/
def shootOwner (_ : Unit) (s : State) : State × Answer :=
  let r := s.arm .shoot 0
  match r.2 with
  | .refused code => (r.1.settleZero, plain code)
  | .armed i n => (r.1.settleZero, done (u8 i.val ++ u32 n))

/-- SHOOT (R156 to R158). -/
def execShoot (p : Bytes) (s : State) : Out := request false (withParams noParams p shootOwner) s

/-- STEADY_WAIT_EXPIRY (R159, R160). -/
def execSteadyWaitExpiry (s : State) : Out :=
  if s.release.steadyTimer then
    .next (s.setRelease { s.release with
      control := { s.release.control with steady := .expired }, steadyTimer := false }).tryExposure
  else .next s

/-- The Stabilizer has entered ACTIVE (R159, R160). -/
def State.takeSteady (s : State) : State :=
  if s.release.control.armed.isSome ∧ s.release.control.steady = .waiting then
    (s.setRelease { s.release with
      control := { s.release.control with steady := .met }, steadyTimer := false }).tryExposure
  else s

/-- STEADY_NOTICE (R159). -/
def execSteadyNotice (s : State) : Out :=
  if s.handoffs.steady = 0 then .next s
  else .next (s.setHandoffs { s.handoffs with steady := s.handoffs.steady - 1 }).takeSteady

/-- The exposure of slot `i` ends (R161): the shutter, the marks, the iris and the pin, the slot, and what falls due. -/
def State.endExposure (s : State) (i : Fin 12) : State :=
  let marks : Marks := ⟨s.stab.shake, decide (s.release.control.steady = .expired)⟩
  let t := ((s.setRelease s.release.closeShutter).setStab s.stab.exposureEnd).letSlotGo
  let r := (t.release.setSlot i { t.release.slots[i] with state := .exposed, marks := some marks, notice := true }).clearControl
  t.setRelease ((r.nextShot i).finish i)

/-- EXPOSURE_TIMER_EXPIRY (R161). -/
def execExposureTimerExpiry (s : State) : Out :=
  match s.release.exposureTimer, s.release.control.armed with
  | some _, some i => .next (s.endExposure i).settleZero
  | _, _ => .next s

/-- STALL_TIMER_EXPIRY (R167). -/
def execStallTimerExpiry (s : State) : Out :=
  if s.release.stallTimer then
    .next (s.setRelease (({ s.release with stallTimer := false } : Release).endBurst .stalled))
  else .next s

/-! ### Picture slots (R163 to R166) -/

/-- SLOT_DEVELOPED (R165). -/
def slotDevelopedOwner (x : Fin 12 × Nat) (s : State) : State × Answer :=
  let t := s.release.slots[x.1]
  let reservation := t.reservation.getD 0
  if t.state ≠ .exposed then (s, plain .wrongState)
  else if x.2 ≤ reservation ∨ s.release.heldSum - reservation + x.2 ≤ s.release.storeFree then
    (s.setRelease (s.release.setSlot x.1 { t with state := .developed, reservation := none, size := some x.2 }), done [])
  else (s, plain .noCapacity)

/-- SLOT_STORED (R165, R167). -/
def slotStoredOwner (i : Fin 12) (s : State) : State × Answer :=
  let t := s.release.slots[i]
  if t.state ≠ .developed then (s, plain .wrongState)
  else
    let r := s.release.setSlot i Slot.cleared
    ((s.setRelease { r with storeFree := r.storeFree - t.size.getD 0 }).slotFreed.settleZero, done [])

/-- An ARMED or EXPOSING slot is given up (R166): its iris and pin are released, and the burst or FINISHING goes on. -/
def State.discardActive (s : State) (i : Fin 12) : State :=
  let t := s.letSlotGo
  t.setRelease ((((t.release.setSlot i Slot.cleared).clearControl).nextShot i).finish i)

/-- SLOT_DISCARD by state (R166). -/
def State.discard (s : State) (i : Fin 12) : State :=
  match (s.release.slots[i]).state with
  | .armed => s.discardActive i
  | .exposing => ((s.setRelease s.release.closeShutter).setStab s.stab.exposureEnd).discardActive i
  | .exposed | .developed => (s.setRelease (s.release.setSlot i Slot.cleared)).slotFreed
  | .free => s

/-- SLOT_DISCARD (R166). -/
def slotDiscardOwner (i : Fin 12) (s : State) : State × Answer :=
  if (s.release.slots[i]).state = .free then (s, plain .wrongState) else ((s.discard i).settleZero, done [])

/-- SLOT_READ (R163): the notice flag is read and cleared. -/
def slotReadOwner (i : Fin 12) (s : State) : State × Answer :=
  let t := s.release.slots[i]
  (s.setRelease (s.release.setSlot i { t with notice := false }), done (t.bytes i))

/-- STORE_CAPACITY (R164). -/
def storeCapacityOwner (blocks : Nat) (s : State) : State × Answer :=
  if blocks < s.release.heldSum then (s, plain .noCapacity)
  else (s.setRelease { s.release with storeFree := blocks }, done [])

/-- SLOT_DEVELOPED (R165). -/
def execSlotDeveloped (p : Bytes) (s : State) : Out := request false (withParams developedParams p slotDevelopedOwner) s

/-- SLOT_STORED (R165). -/
def execSlotStored (p : Bytes) (s : State) : Out := request false (withParams (finParam 12) p slotStoredOwner) s

/-- SLOT_DISCARD (R166). -/
def execSlotDiscard (p : Bytes) (s : State) : Out := request false (withParams (finParam 12) p slotDiscardOwner) s

/-- SLOT_READ (R163). -/
def execSlotRead (p : Bytes) (s : State) : Out := request false (withParams (finParam 12) p slotReadOwner) s

/-- STORE_CAPACITY (R164). -/
def execStoreCapacity (p : Bytes) (s : State) : Out := request false (withParams capacityParam p storeCapacityOwner) s

/-! ### Setup and reading (R170, R171) -/

/-- RELEASE_SETUP (R170). -/
def releaseSetupOwner (u : ReleaseSetup) (s : State) : State × Answer :=
  (s.setRelease { s.release with setup := u }, done [])

/-- SIZE_TABLE_WRITE (R170). -/
def sizeTableWriteOwner (rows : Vector Nat 4) (s : State) : State × Answer :=
  (s.setRelease { s.release with sizeTable := rows }, done [])

/-- RELEASE_READ (R171): the burst notice is read and cleared. -/
def releaseReadOwner (_ : Unit) (s : State) : State × Answer :=
  (s.setRelease { s.release with burst := { s.release.burst with notice := false } }, done s.release.bytes)

/-- RELEASE_SETUP (R170). -/
def execReleaseSetup (p : Bytes) (s : State) : Out := request false (withParams releaseParams p releaseSetupOwner) s

/-- SIZE_TABLE_WRITE (R170). -/
def execSizeTableWrite (p : Bytes) (s : State) : Out := request false (withParams sizeParams p sizeTableWriteOwner) s

/-- RELEASE_READ (R171). -/
def execReleaseRead (p : Bytes) (s : State) : Out := request false (withParams noParams p releaseReadOwner) s

end Sys2Proof.Machine
end

