-- ==== Sys2Proof/Machine/Resolver.lean ====
section
/-! DEFINITION. The Band Resolver's requests, samples and update reports, and the notice that a pin release has been taken
(02). -/

namespace Sys2Proof.Machine

/-- SET_MODE (R28). -/
def setModeOwner (m : Fin 4) (s : State) : State × Answer :=
  if s.resolver.pinned then (s, plain .pinned)
  else if s.resolver.mode = m.val then (s, done [])
  else (((s.setResolver { s.resolver with mode := m.val }).resolve .context).settleZero, done [])

/-- READ_LENS (R40): the miss-unread mark is read and cleared. -/
def readLensOwner (_ : Unit) (s : State) : State × Answer :=
  (s.setResolver { s.resolver with missUnread := false }, done s.resolver.bytes)

/-- SET_MODE (R28). -/
def execSetMode (p : Bytes) (s : State) : Out := request false (withParams (finParam 4) p setModeOwner) s

/-- READ_LENS (R40), taken in standby (R182). -/
def execReadLens (p : Bytes) (s : State) : Out := request true (withParams noParams p readLensOwner) s

/-- The code on the accessory-sense lines (R26). -/
def senseCode (asense1 asense0 : Bool) : Nat := 2 * asense1.toNat + asense0.toNat

/-- A newly sensed code, `c`, is taken (R27). -/
def State.takeCode (s : State) (c : Nat) : State :=
  let r := s.resolver
  if s.standby then s.setResolver { r with accessory := c, pendingCode := none }
  else if r.pinned then
    if c = r.accessory then s.setResolver { r with pendingCode := none }
    else s.setResolver { r with pendingCode := some c, deferred := true }
  else if c = r.accessory then s
  else (s.setResolver { r with accessory := c }).resolve .context

/-- ACCESSORY_SAMPLE (R26, R27): the debounce by two agreeing samples; the sampling timer runs on. -/
def execAccessorySample (asense1 asense0 : Bool) (s : State) : Out :=
  let c := senseCode asense1 asense0
  let t := s.setPins { s.pins with asense1 := asense1, asense0 := asense0 }
  if c = s.resolver.lastSample ∧ c ≠ s.resolver.sensed then
    .next ((t.setResolver { t.resolver with sensed := c, lastSample := c }).takeCode c).settleZero
  else .next (t.setResolver { t.resolver with lastSample := c })

/-- UPDATE_REPORT (R35): the oldest report in flight is taken. -/
def execUpdateReport (s : State) : Out :=
  match s.handoffs.reports with
  | [] => .next s
  | r :: rest => .next ((s.setHandoffs { s.handoffs with reports := rest }).examine r).settleZero

/-- The release has been told that a release of the slot pin is taken (R167): a shot that is due is armed. -/
def State.shotIfDue (s : State) : State :=
  if s.release.burst.shotDue then
    (s.setRelease { s.release with burst := { s.release.burst with shotDue := false } }).armBurst
  else s

/-- PIN_RELEASE_NOTICE (R36, R167). -/
def execPinReleaseNotice (s : State) : Out :=
  if s.handoffs.pins = 0 then .next s
  else .next (s.setHandoffs { s.handoffs with pins := s.handoffs.pins - 1 }).shotIfDue.settleZero

end Sys2Proof.Machine
end

