-- ==== Sys2Proof/Machine/Stabilizer.lean ====
section
/-! DEFINITION. The requests of the Stabilizer, the gyro link, the silence timer and the Band Resolver's notices (08). -/

namespace Sys2Proof.Machine

/-- GYRO_SAMPLE (R138): an entry to ACTIVE is told to the release (R142). -/
def execGyroSample (yawLow yawHigh pitchLow pitchHigh : Byte) (s : State) : Out :=
  let r := s.stab.sample (int16 yawLow yawHigh) (int16 pitchLow pitchHigh)
  let t := s.setStab r.1
  .next (if r.2 then t.postSteady else t)

/-- GYRO_TRANSFER_DISCARDED (R138): a transfer of any length other than four has no effect. -/
def execGyroTransferDiscarded (_transfer : Bytes) (s : State) : Out := .next s

/-- SILENCE_TIMER_EXPIRY (R144). -/
def execSilenceTimerExpiry (s : State) : Out :=
  if s.stab.silenceTimer then .next (s.setStab s.stab.silence) else .next s

/-- STAB_LOAD_NOTICE (R143): the oldest notice in flight is taken, if it tells of a load. -/
def execStabLoadNotice (s : State) : Out :=
  match s.handoffs.stab with
  | .load g :: rest => .next ((s.setHandoffs { s.handoffs with stab := rest }).setStab (s.stab.onLoad g))
  | .unresolved :: _ | [] => .next s

/-- STAB_UNRESOLVED_NOTICE (R143): the oldest notice in flight is taken, if it tells that the record is unresolved. -/
def execStabUnresolvedNotice (s : State) : Out :=
  match s.handoffs.stab with
  | .unresolved :: rest => .next ((s.setHandoffs { s.handoffs with stab := rest }).setStab s.stab.onUnresolved)
  | .load _ :: _ | [] => .next s

/-- STAB_SETUP (R146). -/
def stabSetupOwner (x : Bool × Nat) (s : State) : State × Answer :=
  (s.setStab (({ s.stab with panThreshold := x.2 } : Stabilizer).setEnabled x.1), done [])

/-- STAB_READ (R147): the fault mark is read and cleared. -/
def stabReadOwner (_ : Unit) (s : State) : State × Answer :=
  (s.setStab { s.stab with faultUnread := false }, done s.stab.bytes)

/-- STAB_SETUP (R146). -/
def execStabSetup (p : Bytes) (s : State) : Out := request false (withParams stabParams p stabSetupOwner) s

/-- STAB_READ (R147). -/
def execStabRead (p : Bytes) (s : State) : Out := request false (withParams noParams p stabReadOwner) s

end Sys2Proof.Machine
end

