-- ==== Sys2Proof/Machine/Sweep.lean ====
section
/-! DEFINITION. The requests of the Focus Sweep Unit and its contrast deadline (05). -/

namespace Sys2Proof.Machine

/-- The checks 2 to 7 of SWEEP_START, in order (R89). -/
def State.hostSweepRefusal (s : State) (p : SweepParams) : Option Result :=
  match s.sweepRefusal with
  | some r => some r
  | none =>
    if s.resolver.record.facts.within p.start && s.resolver.record.facts.within p.last then none else some .outOfLimits

/-- SWEEP_START (R89, R91), checked as the hand-offs in flight to the record and to FOCUS leave them (log 33); a refusal changes
nothing. Every stop of a host-started sweep lies within the limits, so the sweep never ends in its start. -/
def sweepStartOwner (p : SweepParams) (s : State) : State × Answer :=
  let t := s.takeHandoffs
  match t.hostSweepRefusal p with
  | some r => (s, plain r)
  | none => ((t.beginSweep .host p).1.settleZero, plain .started)

/-- SWEEP_PRESET (R90). -/
def sweepPresetOwner (p : SweepParams) (s : State) : State × Answer :=
  (s.setSweep { s.sweep with preset := p }, done [])

/-- SWEEP_CONTRAST (R94): the stop number judged and the judgment. -/
def sweepContrastOwner (value : Nat) (s : State) : State × Answer :=
  if s.sweep.record.state = .awaiting then
    let r := s.judge value
    (r.1.settleZero, done (u16 (s.sweep.record.stopNumber.getD 0) ++ u8 r.2.code))
  else (s, plain .notAwaiting)

/-- SWEEP_READ (R102). -/
def sweepReadOwner (_ : Unit) (s : State) : State × Answer := (s, done s.sweep.record.bytes)

/-- SWEEP_START (R89). -/
def execSweepStart (p : Bytes) (s : State) : Out := request false (withParams sweepParams p sweepStartOwner) s

/-- SWEEP_PRESET (R90). -/
def execSweepPreset (p : Bytes) (s : State) : Out := request false (withParams sweepParams p sweepPresetOwner) s

/-- SWEEP_CONTRAST (R94). -/
def execSweepContrast (p : Bytes) (s : State) : Out := request false (withParams contrastParam p sweepContrastOwner) s

/-- SWEEP_READ (R102). -/
def execSweepRead (p : Bytes) (s : State) : Out := request false (withParams noParams p sweepReadOwner) s

/-- CONTRAST_DEADLINE_EXPIRY (R98, R99). -/
def execContrastDeadlineExpiry (s : State) : Out :=
  if s.sweep.deadline ∧ s.sweep.record.state = .awaiting then
    .next (s.endSweep (if s.sweep.record.releasePending then .released else .overrun)).settleZero
  else .next s

end Sys2Proof.Machine
end

