-- ==== Sys2Proof/Machine/System.lean ====
section
/-! DEFINITION. What concerns the whole part: power-on reset, STATUS, CLEAR, STANDBY and WAKE (10). -/

namespace Sys2Proof.Machine

/-! ### Power-on reset (R180) -/

/-- POWER_ON_RESET: RESETN is released with the lines as given (R22, R41, R68, R85, R103, R120, R135, R148, R172, R176). The
first accessory sample is taken without debounce (R41), and a contact found closed starts its debounce timer (R172). The
commands that wait and the model's counter of free values stay (log 27). -/
def execPowerOnReset (halfClosed fullClosed asense1 asense0 : Bool) (s : State) : Out :=
  let c := senseCode asense1 asense0
  .next { State.reset with
    resolver := { Resolver.reset with accessory := c, sensed := c, lastSample := c }
    release := { Release.reset with halfDebounce := halfClosed, fullDebounce := fullClosed }
    pins := ⟨halfClosed, fullClosed, asense1, asense0, s.pins.homeZoom, s.pins.homeFocus, s.pins.homeIris⟩
    freeCount := s.freeCount
    pending := s.pending }

/-! ### STATUS (R179) -/

/-- STATUS clears nothing. -/
def statusOwner (_ : Unit) (s : State) : State × Answer := (s, done s.statusData)

/-- STATUS (R179), taken in standby (R182). -/
def execStatus (p : Bytes) (s : State) : Out := request true (withParams noParams p statusOwner) s

/-! ### CLEAR (R180) -/

/-- The Focus Sweep Unit's part (R103): a running sweep ends without an outcome. -/
def SweepUnit.clear (w : SweepUnit) : SweepUnit :=
  if w.record.state.runs then
    { w with
      record := { w.record with state := .ended, awaiting := false, releasePending := false, outcome := none }
      deadline := false }
  else w

/-- The Exposure Unit's part (R136). -/
def ExposureUnit.clear (e : ExposureUnit) : ExposureUnit := { e with lock := .none, staging := none }

/-- The burst record under CLEAR (R173): a running burst ends CLEARED, without a notice of its own. -/
def Burst.clear (b : Burst) : Burst :=
  if b.running then { b with running := false, current := none, shotDue := false, endReason := some .cleared } else b

/-- The Release and Slot Controller's part (R173), with the contacts as the lines are read. -/
def Release.clear (r : Release) (p : Pins) : Release :=
  { r.closeShutter.clearControl with
    stallTimer := false
    slots := Vector.replicate 12 Slot.cleared
    burst := r.burst.clear
    state := .opened
    finishingOn := none
    sweepOutcome := none
    sweepOwed := false
    lockAwaited := false
    awaitingFocus := false
    halfTaken := false
    fullTaken := false
    halfDebounce := r.halfDebounce || p.halfClosed
    fullDebounce := r.fullDebounce || p.fullClosed }

/-- The parts that keep to their own blocks: sweep, metering, exposure and release (R103, R121, R136, R173). -/
def State.clearRecords (s : State) : State :=
  (((s.setSweep s.sweep.clear).setMeter s.meter.stop).setExposure s.exposure.clear).setRelease (s.release.clear s.pins)

/-- The Band Resolver's part (R42): the pins, the pending code, one resolution with source WAKE, and the drain (log 8). -/
def State.clearResolver (s : State) : State :=
  let r : Resolver := { s.resolver with slotPin := false, sweepPin := false, deferred := false }
  ((s.setResolver r.applyPending).resolveHere .wake).postDrain

/-- The Axis Controller's part, with that of the Zoom and Tracking logic (R69, R86). The order ZOOM, FOCUS, IRIS is the model's
choice (log 41): where ZOOM settles from a homing, its hand-off may resolve the record before FOCUS reads it, for the hand-off of
its own homing (R53, R82) or for what tracking owes it (R81). -/
def State.clearAxes (s : State) : State := ((s.clearAxis .zoom).clearAxis .focus).clearAxis .iris

/-- The parts of CLEAR in the orders that the spec allows (R86, R149; log 7): whether the resolver comes before the axes,
whether the loads in flight are tracked before the axes are stopped, and whether the Stabilizer takes the resolver's notices
before its own part. -/
def State.clearParts (s : State) (resolverFirst loadsFirst noticesFirst : Bool) : State :=
  let t := if resolverFirst then s.clearResolver else s
  let t := if loadsFirst then t.deliverLoads else t
  let t := t.clearAxes
  let t := if resolverFirst then t else t.clearResolver
  let t := t.clearRecords
  let t := if noticesFirst then t.flushStab else t
  t.setStab t.stab.clear

/-- CLEAR (R180): the orders are free choices. -/
def clearOwner (_ : Unit) (s : State) : State × Answer :=
  let n := s.freeCount
  (((s.setFreeCount (n + 3)).clearParts (Config.freeChoice n) (Config.freeChoice (n + 1))
    (Config.freeChoice (n + 2))).settleZero, done [])

/-- CLEAR (R180); in standby it is answered STANDBY. -/
def execClear (p : Bytes) (s : State) : Out := request false (withParams noParams p clearOwner) s

/-! ### STANDBY (R181) -/

/-- The precondition of STANDBY (R181, step 2). -/
def State.mayStandby (s : State) : Bool :=
  s.zoom.state.resting && s.focus.state.resting && s.iris.state.resting && !s.sweep.record.state.runs &&
    !s.meter.running && s.release.allFree && s.map.queue.isEmpty

/-- The entries that standby entry retires (R24). -/
def StandbyScope.retires (c : StandbyScope) (lockCount : Nat) (i : Fin 32) : Bool :=
  match c with
  | .all => false
  | .locked => decide (lockCount ≤ i.val)
  | .none => true

/-- The Lens Map's part (R24). -/
def LensMap.enterStandby (m : LensMap) (c : StandbyScope) : LensMap :=
  { m with entries := Vector.ofFn fun i : Fin 32 =>
      if c.retires m.lockCount i then (m.entries[i]).retired else m.entries[i] }

/-- The Band Resolver's part (R43): the record is unresolved and the Stabilizer is not told. -/
def Resolver.enterStandby (r : Resolver) : Resolver := { r with record := { r.record with resolved := false } }

/-- The Stabilizer's part (R150), after the notices in flight (log 9). -/
def State.standbyStab (s : State) : State := s.flushStab.setStab s.flushStab.stab.enterStandby

/-- Entry to standby: the standby state is set and the parts are handed out (R181). The map, the resolver and the Stabilizer take
theirs in this event, after the passes handed over (R136); the Axis Controller, the Metering Unit and the Release and Slot
Controller take theirs before the answer is placed (log 9). -/
def State.enterStandby (s : State) (c : StandbyScope) : State :=
  let t := s.takeScenes
  let u := (t.setStandby true).setEntering true
  let v := (u.setMap (u.map.enterStandby c)).setResolver u.resolver.enterStandby
  v.standbyStab

/-- STANDBY (R181). -/
def standbyOwner (c : StandbyScope) (s : State) : State × Answer :=
  if s.mayStandby then (s.enterStandby c, done []) else (s, plain .busy)

/-- STANDBY (R181); in standby it is answered STANDBY (R182). -/
def execStandby (p : Bytes) (s : State) : Out := request false (withParams scopeParam p standbyOwner) s

/-! ### WAKE (R182) -/

/-- WAKE is answered WRONG_STATE outside standby. -/
def wakeOwner (_ : Unit) (s : State) : State × Answer :=
  if s.standby then (s.wakeUp, done []) else (s, plain .wrongState)

/-- WAKE (R182). -/
def execWake (p : Bytes) (s : State) : Out := request true (withParams noParams p wakeOwner) s

end Sys2Proof.Machine
end

