-- ==== Sys2Proof/Machine/Dispatch.lean ====
section
/-! DEFINITION. One arm per command: a direct call of its meaning. -/

namespace Sys2Proof.Machine

-- exec leaves `pending` alone: step has taken the command off it.
def exec (i : Instr) (s : State) : Host.Outcome State Fault Refusal :=
  match i with
  | .powerOnReset halfClosed fullClosed asense1 asense0 => Sys2Proof.Machine.execPowerOnReset halfClosed fullClosed asense1 asense0 s
  | .requestFrameRejected frame => Sys2Proof.Machine.execRequestFrameRejected frame s
  | .emptyTransaction => Sys2Proof.Machine.execEmptyTransaction s
  | .requestFrameDropped frame => Sys2Proof.Machine.execRequestFrameDropped frame s
  | .readTransaction carried => Sys2Proof.Machine.execReadTransaction carried s
  | .mapRead p => Sys2Proof.Machine.execMapRead p s
  | .mapProbe p => Sys2Proof.Machine.execMapProbe p s
  | .mapWrite p => Sys2Proof.Machine.execMapWrite p s
  | .mapInstall p => Sys2Proof.Machine.execMapInstall p s
  | .mapRetire p => Sys2Proof.Machine.execMapRetire p s
  | .mapPurge p => Sys2Proof.Machine.execMapPurge p s
  | .mapLock p => Sys2Proof.Machine.execMapLock p s
  | .mapStatus p => Sys2Proof.Machine.execMapStatus p s
  | .queueDrain => Sys2Proof.Machine.execQueueDrain s
  | .updateReport => Sys2Proof.Machine.execUpdateReport s
  | .setMode p => Sys2Proof.Machine.execSetMode p s
  | .readLens p => Sys2Proof.Machine.execReadLens p s
  | .accessorySample asense1 asense0 => Sys2Proof.Machine.execAccessorySample asense1 asense0 s
  | .refillTimerExpiry => Sys2Proof.Machine.execRefillTimerExpiry s
  | .pinReleaseNotice => Sys2Proof.Machine.execPinReleaseNotice s
  | .axisHome p sensor => Sys2Proof.Machine.execAxisHome p sensor s
  | .axisMove p => Sys2Proof.Machine.execAxisMove p s
  | .axisStop p => Sys2Proof.Machine.execAxisStop p s
  | .axisCollect p => Sys2Proof.Machine.execAxisCollect p s
  | .axisProfile p => Sys2Proof.Machine.execAxisProfile p s
  | .axisRead p => Sys2Proof.Machine.execAxisRead p s
  | .stepIntervalExpiry a sensor => Sys2Proof.Machine.execStepIntervalExpiry a sensor s
  | .wakeTimerExpiry a sensor => Sys2Proof.Machine.execWakeTimerExpiry a sensor s
  | .settleTimerExpiry a => Sys2Proof.Machine.execSettleTimerExpiry a s
  | .holdReleaseExpiry a => Sys2Proof.Machine.execHoldReleaseExpiry a s
  | .profileHoldOffExpiry => Sys2Proof.Machine.execProfileHoldOffExpiry s
  | .trackingLoad => Sys2Proof.Machine.execTrackingLoad s
  | .sweepStart p => Sys2Proof.Machine.execSweepStart p s
  | .sweepPreset p => Sys2Proof.Machine.execSweepPreset p s
  | .sweepContrast p => Sys2Proof.Machine.execSweepContrast p s
  | .sweepRead p => Sys2Proof.Machine.execSweepRead p s
  | .contrastDeadlineExpiry => Sys2Proof.Machine.execContrastDeadlineExpiry s
  | .meterSetup p => Sys2Proof.Machine.execMeterSetup p s
  | .meterEnable p => Sys2Proof.Machine.execMeterEnable p s
  | .meterStart p => Sys2Proof.Machine.execMeterStart p s
  | .meterStop p => Sys2Proof.Machine.execMeterStop p s
  | .meterRead p => Sys2Proof.Machine.execMeterRead p s
  | .meterClear p => Sys2Proof.Machine.execMeterClear p s
  | .meterReference p => Sys2Proof.Machine.execMeterReference p s
  | .frameStartPulse => Sys2Proof.Machine.execFrameStartPulse s
  | .referenceTargetReached timeBase => Sys2Proof.Machine.execReferenceTargetReached timeBase s
  | .timeBaseExhausted pulses => Sys2Proof.Machine.execTimeBaseExhausted pulses s
  | .sensorPhaseEnd pulses => Sys2Proof.Machine.execSensorPhaseEnd pulses s
  | .sceneCompute => Sys2Proof.Machine.execSceneCompute s
  | .exposureSetup p => Sys2Proof.Machine.execExposureSetup p s
  | .aeLock p => Sys2Proof.Machine.execAeLock p s
  | .aeUnlock p => Sys2Proof.Machine.execAeUnlock p s
  | .programWrite p => Sys2Proof.Machine.execProgramWrite p s
  | .exposureRead p => Sys2Proof.Machine.execExposureRead p s
  | .gyroSample yawLow yawHigh pitchLow pitchHigh => Sys2Proof.Machine.execGyroSample yawLow yawHigh pitchLow pitchHigh s
  | .gyroTransferDiscarded transfer => Sys2Proof.Machine.execGyroTransferDiscarded transfer s
  | .silenceTimerExpiry => Sys2Proof.Machine.execSilenceTimerExpiry s
  | .stabLoadNotice => Sys2Proof.Machine.execStabLoadNotice s
  | .stabUnresolvedNotice => Sys2Proof.Machine.execStabUnresolvedNotice s
  | .stabSetup p => Sys2Proof.Machine.execStabSetup p s
  | .stabRead p => Sys2Proof.Machine.execStabRead p s
  | .switchLineChange line closed => Sys2Proof.Machine.execSwitchLineChange line closed s
  | .switchDebounceExpiry line => Sys2Proof.Machine.execSwitchDebounceExpiry line s
  | .shoot p => Sys2Proof.Machine.execShoot p s
  | .steadyWaitExpiry => Sys2Proof.Machine.execSteadyWaitExpiry s
  | .steadyNotice => Sys2Proof.Machine.execSteadyNotice s
  | .exposureTimerExpiry => Sys2Proof.Machine.execExposureTimerExpiry s
  | .stallTimerExpiry => Sys2Proof.Machine.execStallTimerExpiry s
  | .slotDeveloped p => Sys2Proof.Machine.execSlotDeveloped p s
  | .slotStored p => Sys2Proof.Machine.execSlotStored p s
  | .slotDiscard p => Sys2Proof.Machine.execSlotDiscard p s
  | .slotRead p => Sys2Proof.Machine.execSlotRead p s
  | .storeCapacity p => Sys2Proof.Machine.execStoreCapacity p s
  | .releaseSetup p => Sys2Proof.Machine.execReleaseSetup p s
  | .sizeTableWrite p => Sys2Proof.Machine.execSizeTableWrite p s
  | .releaseRead p => Sys2Proof.Machine.execReleaseRead p s
  | .status p => Sys2Proof.Machine.execStatus p s
  | .clear p => Sys2Proof.Machine.execClear p s
  | .standby p => Sys2Proof.Machine.execStandby p s
  | .wake p => Sys2Proof.Machine.execWake p s
  | .ownerPlacesAnswer => Sys2Proof.Machine.execOwnerPlacesAnswer s

end Sys2Proof.Machine
end

