-- ==== Sys2Proof/Safety.lean ====
section
/-! DEFINITION. What counts as a safe run: the laws that the spec states of every state of the part; and the words in which
statements about one command are made: when a request is taken, and what the tables of R175 and R177 say of it. -/

namespace Sys2Proof.Machine

/-! ### Laws of every state -/

/-- The map never holds two valid entries that match the same pair (R4). -/
def LensMap.NoDuplicates (m : LensMap) : Prop :=
  ∀ i j : Fin 32, i ≠ j → (m.entries[i]).conflicts m.entries[j] = false

/-- The map's laws: no duplicates (R4), a lock count of at most 16, a cursor between it and 31 (R5), and at most four updates
in the queue (R17). -/
def LensMap.Law (m : LensMap) : Prop :=
  m.NoDuplicates ∧ m.lockCount ≤ 16 ∧ m.lockCount ≤ m.cursor.val ∧ m.queue.length ≤ Config.queueLimit

/-- At most one slot is ARMED or EXPOSING (R158); the exposure control's slot is one of those (R151); and the reservations and
sizes held fit the store (R164). -/
def Release.Law (r : Release) : Prop :=
  (∀ i j : Fin 12, (r.slots[i]).state.active = true → (r.slots[j]).state.active = true → i = j) ∧
    (∀ i : Fin 12, r.control.armed = some i → (r.slots[i]).state.active = true) ∧ r.heldSum ≤ r.storeFree

/-- The laws of the active lens record: while it is pinned it is resolved and ZOOM rests (R37, R83, R84); a pin is held for a slot
or for a sweep (R36); it is resolved only while ZOOM is homed (R33); and in standby it is unresolved and ZOOM rests (R43, R181). -/
def State.RecordLaw (s : State) : Prop :=
  (s.resolver.pinned = true →
    s.resolver.record.resolved = true ∧ (s.zoom.state = .idle ∨ s.zoom.state = .settling)) ∧
  (s.resolver.slotPin = true → s.release.anyActive = true) ∧
  (s.resolver.sweepPin = true → s.sweep.record.state.runs = true) ∧
  (s.resolver.record.resolved = true → s.zoom.state.homed = true) ∧
  (s.standby = true → s.resolver.record.resolved = false ∧ s.zoom.state.resting = true)

/-! ### Words of the statements -/

/-- A request that arrives is taken: the link is FREE and the part is not in standby (R175, R176, R182). -/
def State.ready (s : State) : Prop := s.link = .free ∧ s.standby = false

/-- The request is taken, and its owner's answer waits to be placed (R176). -/
def State.answer (s : State) (a : Answer) : State := { s with link := .working a false }

/-- No settle timer of 0 waits to expire: such a timer expires within the event that starts it (R45). -/
def State.noZeroSettle (s : State) : Prop := ∀ a : AxisId, (s.axis a).settleTimer ≠ some 0

/-- The host may move the axis to the target: every check of R54 after the first passes. -/
def State.mayMove (s : State) (a : AxisId) (target : Nat) : Prop :=
  (s.axis a).state ∈ [.idle, .waking, .moving, .waitMap, .settling] ∧ (s.axis a).completion.pending = false ∧
  (s.axis a).ownership = .none ∧ s.holdOff = false ∧
  (a = .focus → s.resolver.record.resolved = true ∧ s.resolver.record.facts.far ≤ target ∧
    target ≤ s.resolver.record.facts.near) ∧
  (a = .zoom → s.resolver.slotPin = false ∧ s.resolver.sweepPin = false)

/-- The coils' hold-release timer as an axis comes to rest: started if they are ENERGIZED and the profile's time is above 0
(R50), and otherwise as it was. -/
def AxisRecord.holdAtRest (r : AxisRecord) : Option Nat :=
  if r.hold = .energized ∧ 0 < r.profile.holdRelease then some r.profile.holdRelease else r.holdTimer

/-- The command is the expiry of a timer that brings the axis to its decision point, and `r` is the axis's record with that
timer stopped (R46, R49, R52). -/
def State.decisionDue (s : State) (c : Instr) (a : AxisId) (sensor : Bool) (r : AxisRecord) : Prop :=
  (c = .stepIntervalExpiry a sensor ∧ (s.axis a).stepTimer ≠ none ∧ r = { s.axis a with stepTimer := none }) ∨
  (c = .wakeTimerExpiry a sensor ∧ (s.axis a).wakeTimer ≠ none ∧ r = { s.axis a with wakeTimer := none })

/-- The request codes of the table of R175, group by group. -/
def requestCodes : List Nat :=
  List.range' 16 8 ++ List.range' 32 2 ++ List.range' 48 6 ++ List.range' 64 4 ++ List.range' 80 7 ++ List.range' 96 5 ++
    List.range' 112 2 ++ List.range' 128 9 ++ List.range' 144 4

/-- The requests taken in standby: WAKE, STATUS, MAP_STATUS, READ_LENS and AXIS_READ (R182). -/
def standbyCodes : List Nat := [147, 144, 23, 33, 53]

/-- The parameter length that the widths of R177 give a request; AXIS_MOVE takes the width of its axis's position (log 5), and
PROGRAM_WRITE two bytes and a whole number of points. -/
def lengthFits (code length : Nat) : Bool :=
  match code with
  | 18 => length = 15
  | 19 => length = 14
  | 49 => length = 2 || length = 3
  | 52 | 64 | 65 | 135 => length = 8
  | 80 => length = 7
  | 96 => length = 15
  | 99 => decide (2 ≤ length) && (length - 2) % 7 = 0
  | 112 | 134 => length = 3
  | 128 => length = 6
  | 130 => length = 4
  | 17 | 66 => length = 2
  | 16 | 20 | 21 | 22 | 32 | 48 | 50 | 51 | 53 | 81 | 86 | 131 | 132 | 133 | 146 => length = 1
  | _ => length = 0

/-- What one sample of `rate` does to one axis in ACTIVE or PANNING (R139 to R141): `y` is the axis after it, and `past` says
whether its target lay beyond the shift range. -/
def ShiftAxis.sampled (x : ShiftAxis) (threshold gain : Nat) (rate : Int) (y : ShiftAxis) (past : Bool) : Prop :=
  (x.panning = true → past = false ∧
    y = { x with quiet := if rate.natAbs < threshold / 2 then min (x.quiet + 1) 50 else 0 }) ∧
  (x.panning = false → ∀ fast : Nat, fast = (if threshold < rate.natAbs then x.fast + 1 else 0) →
    (50 ≤ fast → past = false ∧ y = { x with panning := true, quiet := 0, fast := 0, integrator := 0 }) ∧
    (fast < 50 → ∀ sum target : Int,
      sum = max (-8388607) (min 8388607 (x.integrator - x.integrator.tdiv 64 + rate)) →
      target = (sum * gain).tdiv 4096 →
      (past = true ↔ 600 < target.natAbs) ∧
        y = { x with fast := fast, integrator := sum, position := max (-600) (min 600 target) }))

/-- An axis of the Stabilizer with its counts and its panning mark cleared (R142 to R144). -/
def ShiftAxis.quieted (x : ShiftAxis) : ShiftAxis := { x with fast := 0, quiet := 0, panning := false }

/-- An axis of the Stabilizer at the entry to CENTERING (R142). -/
def ShiftAxis.atCentering (x : ShiftAxis) : ShiftAxis := { x with integrator := 0, fast := 0, quiet := 0, panning := false }

/-- The update that a map request asks for, when its parameters pass (R8, R11 to R14). -/
def updateOf : Instr → Option Update
  | .mapWrite p => (writeParams p).map fun x => .write x.1 x.2
  | .mapInstall p => (entryParam p).map .install
  | .mapRetire p => (finParam 32 p).map .retire
  | .mapPurge p => (finParam 16 p).map fun c => .purge c.val
  | _ => none

end Sys2Proof.Machine
end

