-- ==== Sys2Proof/Certificates/Slice0/Obligations.lean ====
section
/-! DEFINITION. The statements about this model that the provers are to settle, block by block in the order of the spec's
chapters. Each is a proposition over all states and operands that meet its hypotheses. -/

section
open Sys2Proof Sys2Proof.Machine

/-! ### The step, and what every command does -/

/-- A step takes the command at the front of the queue and runs it on the state with the queue's rest; with no command waiting
the part idles, which is the model's choice (log 3). -/
def Obligations.StepRunsTheFrontCommand : Prop :=
  (∀ (c : Instr) (rest : List Instr) (s : State), step { s with pending := c :: rest } = exec c { s with pending := rest }) ∧
    ∀ s : State, s.pending = [] → step s = .next s

/-- Every command of the table completes with a next state, on every state and all operands, and leaves the queue of waiting
commands alone. (That an event which cannot occur then completes with no change is the model's choice, log 2.) -/
def Obligations.EveryCommandCompletes : Prop :=
  ∀ (c : Instr) (s : State), ∃ t, exec c s = .next t ∧ t.pending = s.pending

/-! ### Power-on reset (R22, R41, R68, R85, R103, R120, R135, R148, R172, R176, R182) -/

/-- R68 and R85: power-on reset leaves every axis as the spec says, from any state. -/
def Obligations.ResetLeavesTheAxesUnhomed : Prop :=
  ∀ (h f a1 a0 : Bool) (s : State), ∃ t, exec (.powerOnReset h f a1 a0) s = .next t ∧
    (∀ a : AxisId, (t.axis a).state = .unhomed ∧ (t.axis a).position = none ∧ (t.axis a).target = none ∧
      (t.axis a).lastDirection = .towardHome ∧ (t.axis a).backlashRemaining = 0 ∧ (t.axis a).hold = .released ∧
      (t.axis a).mover = none ∧ (t.axis a).stopPending = .none ∧ (t.axis a).homingCount = 0 ∧
      (t.axis a).ownership = .none ∧ (t.axis a).completion.pending = false ∧ (t.axis a).completion.outcome = none ∧
      (t.axis a).completion.finalPosition = none ∧ (t.axis a).stepTimer = none ∧ (t.axis a).wakeTimer = none ∧
      (t.axis a).settleTimer = none ∧ (t.axis a).holdTimer = none ∧ (t.axis a).ending = .reached) ∧
    t.zoom.profile = ⟨1250, 10, 500, 5, 8⟩ ∧ t.focus.profile = ⟨400, 4, 300, 3, 12⟩ ∧ t.iris.profile = ⟨1000, 6, 0, 2, 0⟩ ∧
    t.holdOff = false ∧ t.travel.refillTimer = false ∧ t.travel.bandWaited = none ∧ t.travel.crossing = none ∧
    t.travel.owedMark = false ∧ t.travel.owed = 0 ∧ t.resolver.record.facts.offset = 0

/-- R148: power-on reset stops the Stabilizer. -/
def Obligations.ResetStopsTheStabilizer : Prop :=
  ∀ (h f a1 a0 : Bool) (s : State), ∃ t, exec (.powerOnReset h f a1 a0) s = .next t ∧
    t.stab.enabled = false ∧ t.stab.panThreshold = 4000 ∧ t.stab.state = .off ∧
    t.stab.yaw = ⟨0, 0, 0, 0, false⟩ ∧ t.stab.pitch = ⟨0, 0, 0, 0, false⟩ ∧ t.stab.gain = 0 ∧ t.stab.resolved = false ∧
    t.stab.silenceTimer = false ∧ t.stab.faultUnread = false ∧ t.stab.exposureOpen = false ∧ t.stab.limitMark = false ∧
    t.stab.leftActive = false ∧ t.resolver.record.resolved = false

/-- What power-on reset leaves in the map, the resolver, the sweep, metering and exposure units, the release and the link. The
first accessory sample is taken without debounce, and a contact found closed starts its debounce timer. (That the shutter is closed and
EXPOSE is low after reset is the model's choice, log 17.) -/
def Obligations.ResetLeavesTheOtherBlocks : Prop :=
  ∀ (h f a1 a0 : Bool) (s : State), ∃ t, exec (.powerOnReset h f a1 a0) s = .next t ∧
    (∀ i : Fin 32, t.map.entries[i] = ⟨0, 0, false, false, false, 0, 0, 0, 0, 0, 0⟩) ∧ t.map.lockCount = 0 ∧
    t.map.cursor = 31 ∧ t.map.queue = [] ∧ t.map.lastInstall = none ∧ t.map.rejection = none ∧
    t.map.rejectionUnread = false ∧ (∀ q : Pair, t.map.lookup q = none) ∧
    t.resolver.mode = 0 ∧ t.resolver.lastSample = 2 * a1.toNat + a0.toNat ∧ t.resolver.sensed = 2 * a1.toNat + a0.toNat ∧
    t.resolver.context = 2 * a1.toNat + a0.toNat ∧ t.resolver.pendingCode = none ∧ t.resolver.deferred = false ∧
    t.resolver.record = ⟨false, ⟨0, 0, false, false, 0, 0, 0, 0, 0, 0⟩, none, none⟩ ∧ t.resolver.pinCount = 0 ∧
    t.resolver.miss = none ∧ t.resolver.missUnread = false ∧ t.resolver.samplingTimer = true ∧
    t.sweep.record.state = .none ∧ t.sweep.record.awaiting = false ∧ t.sweep.record.outcome = none ∧
    t.sweep.deadline = false ∧ t.sweep.preset = ⟨0, 4095, 16, .peak 256⟩ ∧
    t.meter.enabled = false ∧ t.meter.setup = ⟨0, 7, .single, .request, 4096, false⟩ ∧ t.meter.reference = false ∧
    t.meter.running = false ∧ t.meter.working = none ∧ t.meter.zone = none ∧ t.meter.phase = none ∧
    t.meter.referenceTime = none ∧ t.meter.counter = 0 ∧ t.meter.timeBase = 0 ∧ t.meter.notice = false ∧
    (∀ z : Fin 8, t.meter.zones[z] = ⟨⟨.none, none⟩, false, false⟩) ∧
    (∀ z : Fin 8, t.exposure.setup.weights[z] = 1) ∧ t.exposure.setup.compensation = 0 ∧ t.exposure.setup.mode = .auto ∧
    t.exposure.setup.manual = ⟨8000, 0, 0⟩ ∧ t.exposure.program = [] ∧ t.exposure.staging = none ∧
    t.exposure.scene = ⟨none, false, 0⟩ ∧ t.exposure.lock = .none ∧ t.exposure.solution = none ∧
    t.release.state = .opened ∧ t.release.position = .none ∧ t.release.halfDebounce = h ∧ t.release.fullDebounce = f ∧
    t.release.setup = ⟨.single, 10, false, false, true, true⟩ ∧ t.release.sweepOutcome = none ∧
    t.release.sweepOwed = false ∧ t.release.lockAwaited = false ∧ t.release.awaitingFocus = false ∧
    t.release.lastRefusal = none ∧ t.release.burst = ⟨false, 0, none, false, none, false⟩ ∧ t.release.stallTimer = false ∧
    t.release.control.armed = none ∧ t.release.control.irisSettled = false ∧ t.release.steadyTimer = false ∧
    t.release.exposureTimer = none ∧ t.release.shutter = false ∧ t.release.expose = false ∧
    (∀ i : Fin 12, t.release.slots[i] = ⟨.free, none, none, none, none, none, false⟩) ∧
    (∀ r : Fin 4, t.release.sizeTable[r] = 64) ∧ t.release.storeFree = 0 ∧ t.release.shotCounter = 0 ∧
    t.link = .free ∧ rdy t = false ∧ attn t = false ∧ t.standby = false

/-! ### The control link (R175 to R177, R182) -/

/-- R175, steps 1 to 4: a request transaction that ends in FREE and is turned away is answered at once, with no other effect.
Malformed or with a wrong sum: LINK_ERROR. A code that names no request: UNKNOWN_REQUEST. In standby: STANDBY. -/
def Obligations.RejectedFrameIsAnsweredAtOnce : Prop :=
  ∀ (frame : Bytes) (s : State), s.link = .free → (∃ b rest, frame = b :: rest ∧ b ≠ 0#8) →
    ((frame.length < 3 ∨ 60 < (frame.getD 1 0#8).toNat ∨ frame.length ≠ (frame.getD 1 0#8).toNat + 3 ∨
        (frame.map (fun b => b.toNat)).sum % 256 ≠ 0) →
      exec (.requestFrameRejected frame) s = .next { s with link := .answering ⟨.linkError, []⟩ false }) ∧
    (∀ (code : Nat) (p : Bytes), code < 256 → p.length ≤ 60 → frame = requestFrame code p →
      (code ∉ requestCodes →
        exec (.requestFrameRejected frame) s = .next { s with link := .answering ⟨.unknownRequest, []⟩ false }) ∧
      (code ∈ requestCodes → code ∉ standbyCodes → s.standby = true →
        exec (.requestFrameRejected frame) s = .next { s with link := .answering ⟨.standby, []⟩ false }))

/-- R176: a read transaction sends the waiting answer frame from its first byte, and removes the answer when it carried the
whole frame; what follows the frame in a longer read is free (log 18). In FREE and WORKING it sends bytes of 0. -/
def Obligations.ReadTransactionSendsTheAnswer : Prop :=
  ∀ (n : Nat) (s : State),
    (∀ a lost, s.link = .answering a lost →
      ((answerFrame a lost).length ≤ n → ∃ extra, extra.length = n - (answerFrame a lost).length ∧
        exec (.readTransaction (n + 1)) s = .next { s with
          link := .free, sent := answerFrame a lost ++ extra,
          freeCount := s.freeCount + (n - (answerFrame a lost).length) }) ∧
      (n < (answerFrame a lost).length →
        exec (.readTransaction (n + 1)) s = .next { s with sent := (answerFrame a lost).take n })) ∧
    ((s.link = .free ∨ ∃ a lost, s.link = .working a lost) →
      exec (.readTransaction (n + 1)) s = .next { s with sent := List.replicate n 0#8 })

/-- R175, R176 and R178: an answer frame is the result code with 128 for the LOST mark, the data length, the data and a check
byte that makes the frame sum to 0. Placing it makes RDY high. The answer to STANDBY is placed once every block has taken its
part of the entry (R181); which parts wait until then is the model's choice (log 9). -/
def Obligations.OwnerPlacesTheAnswerFrame : Prop :=
  (∀ (a : Answer) (lost : Bool) (s : State), s.link = .working a lost →
    exec .ownerPlacesAnswer s = .next { s.finishEntry with link := .answering a lost } ∧
      (s.entering = false → exec .ownerPlacesAnswer s = .next { s with link := .answering a lost }) ∧
      rdy s = false ∧ ∀ t : State, rdy { t with link := .answering a lost } = true) ∧
  ∀ (a : Answer) (lost : Bool), ∃ check : Byte,
    answerFrame a lost = BitVec.ofNat 8 (a.result.code + (if lost then 128 else 0)) :: BitVec.ofNat 8 a.data.length ::
      a.data ++ [check] ∧ ((answerFrame a lost).map (fun b => b.toNat)).sum % 256 = 0

/-- R176, R182 and R175, step 4: a request that ends in WORKING or ANSWERING is dropped, whichever it is, and leaves the LOST
mark alone, as does any other frame that ends then, unjudged; a transaction without a byte has no effect in any link state; in
standby every request but WAKE, STATUS, MAP_STATUS, READ_LENS and AXIS_READ is answered STANDBY and has no other effect. -/
def Obligations.RequestIsTakenOnlyWhileFreeAndAwake : Prop :=
  (∀ (c : Instr) (s : State),
    ((∃ code p, c.request? = some (code, p)) ∨
      ∃ b rest, b ≠ 0#8 ∧ (c = .requestFrameDropped (b :: rest) ∨ c = .requestFrameRejected (b :: rest))) →
    (∀ a lost, s.link = .working a lost → exec c s = .next { s with link := .working a true }) ∧
    (∀ a lost, s.link = .answering a lost → exec c s = .next { s with link := .answering a true })) ∧
  (∀ s : State, exec .emptyTransaction s = .next s) ∧
  ∀ (c : Instr) (code : Nat) (p : Bytes) (s : State), c.request? = some (code, p) → s.link = .free → s.standby = true →
    code ∉ standbyCodes → exec c s = .next { s with link := .answering ⟨.standby, []⟩ false }

/-- R177, with R8 and the parameter check of each request's own rule: a request taken with a parameter length that does not fit
it, or with a parameter outside its range or its list of values, is answered BAD_PARAMETER, before any other check, and has no
other effect. The layout and the ranges that each reading asks for are those of the three statements on parameters that follow,
byte for byte; the ranges of PROGRAM_WRITE, which are checked after its layout, are in the statement on the program. (That
PROGRAM_WRITE of a wrong length keeps what is staged is the model's reading, log 26; the width of a position is too, log 5.) -/
def Obligations.WrongLengthOrValueIsABadParameter : Prop :=
  (∀ (c : Instr) (code : Nat) (p : Bytes) (s : State), c.request? = some (code, p) → s.link = .free →
    (s.standby = false ∨ code ∈ standbyCodes) → lengthFits code p.length = false →
    exec c s = .next (s.answer ⟨.badParameter, []⟩)) ∧
  ∀ (s : State) (p : Bytes) (sensor : Bool) (bad : Instr → Prop), s.link = .free →
    (∀ c : Instr, bad c ↔ exec c s = .next (s.answer ⟨.badParameter, []⟩)) →
    (axisParam p = none → bad (.axisRead p)) ∧
    (s.standby = false →
      (finParam 32 p = none → bad (.mapRead p) ∧ bad (.mapRetire p)) ∧
      (probeParams p = none → bad (.mapProbe p)) ∧
      (writeParams p = none → bad (.mapWrite p)) ∧
      (entryParam p = none → bad (.mapInstall p)) ∧
      (finParam 16 p = none → bad (.mapPurge p)) ∧
      (finParam 17 p = none → bad (.mapLock p)) ∧
      (finParam 4 p = none → bad (.setMode p)) ∧
      (axisParam p = none → bad (.axisHome p sensor) ∧ bad (.axisStop p) ∧ bad (.axisCollect p)) ∧
      (moveParams p = none → bad (.axisMove p)) ∧
      (profileParams p = none → bad (.axisProfile p)) ∧
      (sweepParams p = none → bad (.sweepStart p) ∧ bad (.sweepPreset p)) ∧
      (contrastParam p = none → bad (.sweepContrast p)) ∧
      (meterParams p = none → bad (.meterSetup p)) ∧
      (flagParam p = none → bad (.meterEnable p) ∧ bad (.meterReference p)) ∧
      (exposureParams p = none → bad (.exposureSetup p)) ∧
      (programParams p = none → bad (.programWrite p)) ∧
      (stabParams p = none → bad (.stabSetup p)) ∧
      (releaseParams p = none → bad (.releaseSetup p)) ∧
      (finParam 12 p = none → bad (.slotStored p) ∧ bad (.slotDiscard p) ∧ bad (.slotRead p)) ∧
      (developedParams p = none → bad (.slotDeveloped p)) ∧
      (capacityParam p = none → bad (.storeCapacity p)) ∧
      (sizeParams p = none → bad (.sizeTableWrite p)) ∧
      (scopeParam p = none → bad (.standby p)))

/-- A request that can be sent survives its frame: the frame of a request decodes to that request, with every parameter byte,
and its code is in the table of R175. -/
def Obligations.DecodeOfEncodedRequestIsTheRequest : Prop :=
  ∀ (i : Instr) (code : Nat) (p : Bytes), i.wellFormed = true → i.request? = some (code, p) → code ∈ requestCodes ∧
    ∃ sensor : Bool, ∃ frame : Bytes, encodeFrame i = some frame ∧ frame.length = p.length + 3 ∧
      decodeFrame frame sensor = some i

/-! ### Parameters on the wire (R177, with the ranges of each request's own rule) -/

/-- R8 and R177: the parameters of the map's requests, byte for byte, and their ranges. -/
def Obligations.MapParametersOnTheWire : Prop :=
  (∀ (n : Nat) (p : Bytes) (i : Fin n), n ≤ 256 → (finParam n p = some i ↔ p = [BitVec.ofNat 8 i.val])) ∧
  (∀ (p : Bytes) (q : Pair), probeParams p = some q ↔
    q.context ≤ 15 ∧ q.band ≤ 63 ∧ p = [BitVec.ofNat 8 q.context, BitVec.ofNat 8 q.band]) ∧
  (∀ (p : Bytes) (e : Entry), entryParam p = some e ↔
    (e.context ≤ 15 ∧ e.band ≤ 63 ∧ -2000 ≤ e.offset ∧ e.offset ≤ 2000 ∧ e.far ≤ e.near ∧ e.near ≤ 4095 ∧
      e.widestIris ≤ 63 ∧ e.loss ≤ 64 ∧ e.gain ≤ 255) ∧
    p = u8 e.context ++ u8 e.band ++ flag e.global ++ flag e.valid ++ flag e.drivePermit ++ s16 e.offset ++ u16 e.far ++
      u16 e.near ++ u8 e.widestIris ++ u8 e.loss ++ u8 e.gain) ∧
  ∀ (p : Bytes) (i : Fin 32) (e : Entry), writeParams p = some (i, e) ↔
    ∃ rest, p = BitVec.ofNat 8 i.val :: rest ∧ entryParam rest = some e

/-- R54, R66, R89, R94 and R177: the parameters of the axes' and the sweep's requests, byte for byte, and their ranges. A
position takes the bytes of its axis's own range (log 5). -/
def Obligations.AxisAndSweepParametersOnTheWire : Prop :=
  (∀ (p : Bytes) (a : AxisId), axisParam p = some a ↔
    p = [match a with | .zoom => 0#8 | .focus => 1#8 | .iris => 2#8]) ∧
  (∀ (p : Bytes) (a : AxisId) (n : Nat), moveParams p = some (a, n) ↔
    (match a with
     | .zoom => n ≤ 1599 ∧ p = 0#8 :: u16 n
     | .focus => n ≤ 4095 ∧ p = 1#8 :: u16 n
     | .iris => n ≤ 63 ∧ p = 2#8 :: u8 n)) ∧
  (∀ (p : Bytes) (a : AxisId) (r : Profile), profileParams p = some (a, r) ↔
    (200 ≤ r.stepInterval ∧ r.stepInterval ≤ 20000 ∧ r.settle ≤ 255 ∧ r.holdRelease ≤ 5000 ∧ 1 ≤ r.wake ∧ r.wake ≤ 50 ∧
      r.backlash ≤ 63) ∧
    ∃ x, axisParam [x] = some a ∧
      p = x :: (u16 r.stepInterval ++ u8 r.settle ++ u16 r.holdRelease ++ u8 r.wake ++ u8 r.backlash)) ∧
  (∀ (p : Bytes) (w : SweepParams), sweepParams p = some w ↔
    (w.start ≤ 4095 ∧ w.last ≤ 4095 ∧ 1 ≤ w.stride ∧ w.stride ≤ 64) ∧
    (match w.condition with
     | .reach v => v ≤ 65535 ∧ p = u16 w.start ++ u16 w.last ++ u8 w.stride ++ [0#8] ++ u16 v
     | .peak v => 1 ≤ v ∧ v ≤ 65535 ∧ p = u16 w.start ++ u16 w.last ++ u8 w.stride ++ [1#8] ++ u16 v)) ∧
  ∀ (p : Bytes) (v : Nat), contrastParam p = some v ↔ v ≤ 65535 ∧ p = u16 v

/-- R105, R112, R118, R122, R125, R128, R129, R146, R164, R165, R170, R181 and R177: the parameters of the other requests, byte
for byte, and their ranges. A part of PROGRAM_WRITE is its total, its first point number and seven bytes to each point, and is
none where the length gives no whole number of points; its layout takes every value that the bytes hold, and what R128 and R129
then ask of the values is in the statement on the program. -/
def Obligations.OtherParametersOnTheWire : Prop :=
  (∀ (p : Bytes) (b : Bool), flagParam p = some b ↔ p = [if b then 1#8 else 0#8]) ∧
  (∀ (p : Bytes) (u : MeterSetup), meterParams p = some u ↔
    u.first ≤ u.last ∧ 256 ≤ u.target ∧ u.target ≤ 65535 ∧
    p = u8 u.first.val ++ u8 u.last.val ++ [match u.mode with | .single => 0#8 | .continuous => 1#8] ++
      [match u.trigger with | .request => 0#8 | .frame => 1#8 | .half => 2#8] ++ u16 u.target ++ flag u.notify) ∧
  (∀ (p : Bytes) (u : ExposureSetup), exposureParams p = some u ↔
    (∀ z : Fin 8, u.weights[z] ≤ 15) ∧ -48 ≤ u.compensation ∧ u.compensation ≤ 48 ∧ 20 ≤ u.manual.time ∧
    u.manual.time ≤ 8000000 ∧ u.manual.iris ≤ 63 ∧ u.manual.gain ≤ 96 ∧
    p = u.weights.toList.map (BitVec.ofNat 8) ++ s8 u.compensation ++
      [match u.mode with | .auto => 0#8 | .manual => 1#8] ++ u24 u.manual.time ++ u8 u.manual.iris ++ u8 u.manual.gain) ∧
  (∀ (p : Bytes) (on : Bool) (threshold : Nat), stabParams p = some (on, threshold) ↔
    threshold ≤ 32767 ∧ p = flag on ++ u16 threshold) ∧
  (∀ (p : Bytes) (u : ReleaseSetup), releaseParams p = some u ↔
    1 ≤ u.burstLimit ∧ u.burstLimit ≤ 99 ∧
    p = [match u.mode with | .single => 0#8 | .burst => 1#8] ++ u8 u.burstLimit ++ flag u.focusPriority ++
      flag u.afOnHalf ++ flag u.aeLockOnHalf ++ flag u.steadyWait) ∧
  (∀ (p : Bytes) (i : Fin 12) (size : Nat), developedParams p = some (i, size) ↔
    1 ≤ size ∧ size ≤ 16777215 ∧ p = u8 i.val ++ u24 size) ∧
  (∀ (p : Bytes) (n : Nat), capacityParam p = some n ↔ n ≤ 16777215 ∧ p = u24 n) ∧
  (∀ (p : Bytes) (v : Vector Nat 4), sizeParams p = some v ↔
    (∀ r : Fin 4, v[r] ≤ 65535) ∧ p = u16 v[0] ++ u16 v[1] ++ u16 v[2] ++ u16 v[3]) ∧
  (∀ (p : Bytes) (u : ProgramPart), programParams p = some u ↔
    u.total ≤ 255 ∧ u.first ≤ 255 ∧
    (∀ q ∈ u.points, -32768 ≤ q.evFrom ∧ q.evFrom ≤ 32767 ∧ q.settings.time ≤ 16777215 ∧ q.settings.iris ≤ 255 ∧
      q.settings.gain ≤ 255) ∧
    p = u8 u.total ++ u8 u.first ++
      u.points.flatMap fun q => s16 q.evFrom ++ u24 q.settings.time ++ u8 q.settings.iris ++ u8 q.settings.gain) ∧
  (∀ p : Bytes, programParams p = none ↔ p.length < 2 ∨ (p.length - 2) % 7 ≠ 0) ∧
  ∀ (p : Bytes) (c : StandbyScope), scopeParam p = some c ↔
    p = [match c with | .all => 0#8 | .locked => 1#8 | .none => 2#8]

/-! ### The lens map (01) -/

/-- R9: MAP_READ answers the whole entry at the index, valid or not; UPDATES_PENDING while the queue holds an update; a bad
index is BAD_PARAMETER even then; and nothing changes. -/
def Obligations.MapReadReturnsTheWholeEntry : Prop :=
  ∀ (s : State), s.ready →
    (∀ i : Fin 32, s.map.queue = [] → exec (.mapRead [BitVec.ofNat 8 i.val]) s = .next (s.answer ⟨.done,
      u8 (s.map.entries[i]).context ++ u8 (s.map.entries[i]).band ++ flag (s.map.entries[i]).global ++
        flag (s.map.entries[i]).valid ++ flag (s.map.entries[i]).drivePermit ++ s16 (s.map.entries[i]).offset ++
        u16 (s.map.entries[i]).far ++ u16 (s.map.entries[i]).near ++ u8 (s.map.entries[i]).widestIris ++
        u8 (s.map.entries[i]).loss ++ u8 (s.map.entries[i]).gain⟩)) ∧
    (∀ i : Fin 32, s.map.queue ≠ [] →
      exec (.mapRead [BitVec.ofNat 8 i.val]) s = .next (s.answer ⟨.updatesPending, []⟩)) ∧
    ∀ b : Byte, 31 < b.toNat → exec (.mapRead [b]) s = .next (s.answer ⟨.badParameter, []⟩)

/-- R10, R2: MAP_PROBE answers the index of the entry that matches the pair, a global entry serving every context; NOT_FOUND
where none matches; UPDATES_PENDING while the queue holds an update; and nothing changes. -/
def Obligations.MapProbeFindsTheMatchingEntry : Prop :=
  ∀ (s : State) (c b : Nat), s.ready → c ≤ 15 → b ≤ 63 →
    (s.map.queue ≠ [] →
      exec (.mapProbe [BitVec.ofNat 8 c, BitVec.ofNat 8 b]) s = .next (s.answer ⟨.updatesPending, []⟩)) ∧
    (s.map.queue = [] →
      (∀ i : Fin 32, ((s.map.entries[i]).valid = true ∧ (s.map.entries[i]).band = b ∧
          ((s.map.entries[i]).global = true ∨ (s.map.entries[i]).context = c)) →
        (∀ j : Fin 32, ((s.map.entries[j]).valid = true ∧ (s.map.entries[j]).band = b ∧
          ((s.map.entries[j]).global = true ∨ (s.map.entries[j]).context = c)) → j = i) →
        exec (.mapProbe [BitVec.ofNat 8 c, BitVec.ofNat 8 b]) s = .next (s.answer ⟨.done, [BitVec.ofNat 8 i.val]⟩)) ∧
      ((∀ i : Fin 32, ¬ ((s.map.entries[i]).valid = true ∧ (s.map.entries[i]).band = b ∧
          ((s.map.entries[i]).global = true ∨ (s.map.entries[i]).context = c))) →
        exec (.mapProbe [BitVec.ofNat 8 c, BitVec.ofNat 8 b]) s = .next (s.answer ⟨.notFound, []⟩)))

/-- R11, R13, R4, R21: a write and a retirement applied at once: on an empty queue, where no pin holds the update. The write is checked
against every entry but the one it replaces, and reports its index; a refused one names the lowest conflicting index and changes
nothing. A retirement clears the valid flag alone, is never refused, and is reported if the entry was valid. -/
def Obligations.WriteAndRetireAppliedAtOnce : Prop :=
  ∀ (s : State) (i : Fin 32) (p : Bytes), s.ready → s.map.queue = [] →
    (∀ e : Entry, writeParams p = some (i, e) → s.map.holds s.resolver (.write i e) = false →
      ((∀ j : Fin 32, j ≠ i → e.conflicts s.map.entries[j] = false) →
        exec (.mapWrite p) s = .next { s with
          map := { s.map with entries := s.map.entries.set i e }
          handoffs := { s.handoffs with reports := s.handoffs.reports ++ [[(i, e.valid)]] }
          link := .working ⟨.done, []⟩ false }) ∧
      (∀ j : Fin 32, j ≠ i → e.conflicts s.map.entries[j] = true →
        (∀ k : Fin 32, k < j → k ≠ i → e.conflicts s.map.entries[k] = false) →
        exec (.mapWrite p) s = .next (s.answer ⟨.duplicateKey, [BitVec.ofNat 8 j.val]⟩))) ∧
    (finParam 32 p = some i → s.map.holds s.resolver (.retire i) = false →
      ((s.map.entries[i]).valid = true →
        exec (.mapRetire p) s = .next { s with
          map := { s.map with entries := s.map.entries.set i { s.map.entries[i] with valid := false } }
          handoffs := { s.handoffs with reports := s.handoffs.reports ++ [[(i, false)]] }
          link := .working ⟨.done, []⟩ false }) ∧
      ((s.map.entries[i]).valid = false → exec (.mapRetire p) s = .next (s.answer ⟨.done, []⟩)))

/-- R12, R6, R7, R14: an install and a purge applied at once: on an empty queue, where no pin holds the update. The install goes to the
lowest invalid place at or above the lock count, or else to the cursor's place, and then the cursor moves down by one, or from
the lock count to 31; a refused one changes nothing. A purge retires the valid entries of the context that are not global. -/
def Obligations.InstallAndPurgeAppliedAtOnce : Prop :=
  ∀ (s : State) (p : Bytes), s.ready → s.map.queue = [] →
    (∀ e : Entry, entryParam p = some e → s.map.holds s.resolver (.install e) = false →
      ((∀ j : Fin 32, ({ e with valid := true } : Entry).conflicts s.map.entries[j] = false) →
        (∀ k : Fin 32, s.map.lockCount ≤ k.val → (s.map.entries[k]).valid = false →
          (∀ j : Fin 32, s.map.lockCount ≤ j.val → j < k → (s.map.entries[j]).valid = true) →
          exec (.mapInstall p) s = .next { s with
            map := { s.map with entries := s.map.entries.set k { e with valid := true }, lastInstall := some k }
            handoffs := { s.handoffs with reports := s.handoffs.reports ++ [[(k, true)]] }
            link := .working ⟨.done, [BitVec.ofNat 8 k.val]⟩ false }) ∧
        ((∀ j : Fin 32, s.map.lockCount ≤ j.val → (s.map.entries[j]).valid = true) →
          ∃ c : Fin 32, c.val = (if s.map.cursor.val = s.map.lockCount then 31 else s.map.cursor.val - 1) ∧
            exec (.mapInstall p) s = .next { s with
              map := { s.map with
                entries := s.map.entries.set s.map.cursor { e with valid := true }
                cursor := c
                lastInstall := some s.map.cursor }
              handoffs := { s.handoffs with reports := s.handoffs.reports ++ [[(s.map.cursor, true)]] }
              link := .working ⟨.done, [BitVec.ofNat 8 s.map.cursor.val]⟩ false })) ∧
      (∀ j : Fin 32, ({ e with valid := true } : Entry).conflicts s.map.entries[j] = true →
        (∀ k : Fin 32, k < j → ({ e with valid := true } : Entry).conflicts s.map.entries[k] = false) →
        exec (.mapInstall p) s = .next (s.answer ⟨.duplicateKey, [BitVec.ofNat 8 j.val]⟩))) ∧
    (∀ c : Fin 16, finParam 16 p = some c → s.map.holds s.resolver (.purge c.val) = false →
      ∀ retired : List (Fin 32), retired = (List.finRange 32).filter (fun i => (s.map.entries[i]).valid &&
          !(s.map.entries[i]).global && decide ((s.map.entries[i]).context = c.val)) →
        ∃ entries : Vector Entry 32,
          (∀ i : Fin 32, entries[i] =
            if i ∈ retired then { s.map.entries[i] with valid := false } else s.map.entries[i]) ∧
          exec (.mapPurge p) s = .next { s with
            map := { s.map with entries := entries }
            handoffs := { s.handoffs with reports := s.handoffs.reports ++
              (if retired = [] then [] else [retired.map fun i => (i, false)]) }
            link := .working ⟨.done, [BitVec.ofNat 8 retired.length]⟩ false })

/-- R17: an update that may not be applied, or that finds updates waiting, joins the queue and is answered QUEUED with the new
depth; a fifth is refused with QUEUE_FULL and leaves no trace. -/
def Obligations.UpdatesWaitInTheQueue : Prop :=
  ∀ (c : Instr) (u : Update) (s : State), updateOf c = some u → s.ready →
    (s.map.queue = [] → s.map.holds s.resolver u = true →
      exec c s = .next { s with map := { s.map with queue := [u] }, link := .working ⟨.queued, [1#8]⟩ false }) ∧
    (s.map.queue ≠ [] → s.map.queue.length < 4 →
      exec c s = .next { s with
        map := { s.map with queue := s.map.queue ++ [u] }
        link := .working ⟨.queued, [BitVec.ofNat 8 (s.map.queue.length + 1)]⟩ false }) ∧
    (4 ≤ s.map.queue.length → exec c s = .next (s.answer ⟨.queueFull, []⟩))

/-- R18: which updates a pin holds. With nothing pinned every update may be applied; with the record pinned, resolved for the
pair `q` from index `i`, an update is held exactly in the five cases of the rule. -/
def Obligations.PinHoldsTheUpdatesThatTouchItsEntry : Prop :=
  ∀ (m : LensMap) (r : Resolver),
    (r.slotPin = false → r.sweepPin = false → ∀ u, m.holds r u = false) ∧
    (∀ (i : Fin 32) (q : Pair), (r.slotPin = true ∨ r.sweepPin = true) → r.record.source = some i → r.record.pair = some q →
      (∀ (j : Fin 32) (e : Entry), m.holds r (.write j e) = true ↔ (j = i ∨
        (e.valid = true ∧ e.band = q.band ∧ (e.global = true ∨ e.context = q.context)))) ∧
      (∀ j : Fin 32, m.holds r (.retire j) = true ↔ j = i) ∧
      (∀ c : Nat, m.holds r (.purge c) = true ↔ ((m.entries[i]).context = c ∧ (m.entries[i]).global = false)) ∧
      ∀ e : Entry, m.holds r (.install e) = true ↔ (m.choosePlace = i ∨
        (e.band = q.band ∧ (e.global = true ∨ e.context = q.context))))

/-- R19 to R21 and R35: the map examines its head. Nothing waits, or the head is held: the drain ends. Otherwise the head is
removed and applied as it would have been on arrival, its change is reported and the report examined within the drain, and the
drain goes on with the rest; a write or an install that fails its duplicate check is dropped and leaves the rejection record,
unread. (That the reports in flight, made earlier, are examined first is the model's reading, log 33. A settle of 0 that the
event starts expires within it, log 11.) -/
def Obligations.DrainAppliesTheQueueInOrder : Prop :=
  (∀ (n : Nat) (s : State), s.handoffs.drains = n + 1 →
    exec .queueDrain s = .next ({ s with handoffs := { s.handoffs with drains := n } } : State).drained.settleZero) ∧
  ∀ s : State, s.drained = s.takeReports.drained ∧ s.takeReports.handoffs.reports = [] ∧
    (s.handoffs.reports = [] →
      (s.map.queue = [] → s.drained = s) ∧
      (∀ (u : Update) (rest : List Update), s.map.queue = u :: rest →
        (s.map.holds s.resolver u = true → s.drained = s) ∧
        (s.map.holds s.resolver u = false →
          (∀ (m : LensMap) (r : Report) (data : Bytes), s.map.apply u = .ok (m, r, data) →
            s.drained = (({ s with map := { m with queue := rest } } : State).examine r).drained) ∧
          (∀ (j : Fin 32), s.map.apply u = .error j →
            ∃ rejection : Rejection, rejection.reason = .duplicateKey ∧ rejection.conflicting = j ∧
              (∀ i e, u = .write i e → rejection.kind = .write ∧ rejection.index = some i ∧ rejection.key = none) ∧
              (∀ e, u = .install e → rejection.kind = .install ∧ rejection.index = none ∧
                rejection.key = some ⟨e.context, e.band, e.global⟩) ∧
              s.drained = ({ s with
                map := { s.map with queue := rest, rejection := some rejection, rejectionUnread := true } } :
                  State).drained))))

/-- R15: MAP_LOCK sets the lock count at once, whatever waits or is pinned; a cursor that the count has passed goes to 31,
and any other is kept; the map is to examine its head again. (That the map does so as a QUEUE_DRAIN event is the model's
reading, log 28.) -/
def Obligations.MapLockSetsTheLockCount : Prop :=
  ∀ (s : State) (count : Nat), s.ready → count ≤ 16 →
    exec (.mapLock [BitVec.ofNat 8 count]) s = .next { s with
      map := { s.map with
        lockCount := count
        cursor := if s.map.cursor.val < count then 31 else s.map.cursor }
      handoffs := { s.handoffs with drains := s.handoffs.drains + 1 }
      link := .working ⟨.done, []⟩ false }

/-- R4, R5, R17: every step keeps the map's laws: no two valid entries match the same pair, the lock count is at most 16, the
cursor lies between it and 31, and the queue holds at most four updates. -/
def Obligations.StepKeepsTheMapLaw : Prop :=
  ∀ s t : State, s.map.Law → step s = .next t → t.map.Law

/-- The map's laws, the release's laws and the record's laws hold right after reset. -/
def Obligations.LawsHoldAtReset : Prop :=
  State.reset.map.Law ∧ State.reset.release.Law ∧ State.reset.RecordLaw

/-! ### The active lens record (02) -/

/-- R30 to R33, R37: a resolution that is called for while nothing is pinned and ZOOM is not waiting. A matching entry is loaded
and the load handed on with the tracking reference; with none the record becomes unresolved and the miss is written; with ZOOM
not homed no lookup is made. While the record is pinned only the deferred mark is set. The Stabilizer is told of an unresolved
record only if it was resolved. (In standby no resolution is made, log 10.) -/
def Obligations.ResolutionLoadsOrMisses : Prop :=
  ∀ (s : State) (source : MissSource),
    ((s.resolver.slotPin = true ∨ s.resolver.sweepPin = true) →
      s.resolve source = { s with resolver := { s.resolver with deferred := true } }) ∧
    (s.resolver.slotPin = false → s.resolver.sweepPin = false → s.standby = true → s.resolve source = s) ∧
    (s.resolver.slotPin = false → s.resolver.sweepPin = false → s.standby = false → s.zoom.state ≠ .waitMap →
      (∀ (position : Nat), s.zoom.position = some position → s.zoom.state ∈ [.idle, .waking, .moving, .settling] →
        (∀ i : Fin 32, s.map.lookup ⟨4 * s.resolver.mode + s.resolver.accessory, position / 25⟩ = some i →
          s.resolve source = { s with
            resolver := { s.resolver with
              record := ⟨true, (s.map.entries[i]).facts, some i,
                some ⟨4 * s.resolver.mode + s.resolver.accessory, position / 25⟩⟩
              miss := none
              missUnread := false }
            handoffs := { s.handoffs with
              loads := s.handoffs.loads ++ [⟨(s.map.entries[i]).facts, s.resolver.record.facts.offset⟩]
              stab := s.handoffs.stab ++ [.load (s.map.entries[i]).gain] } }) ∧
        (s.map.lookup ⟨4 * s.resolver.mode + s.resolver.accessory, position / 25⟩ = none →
          s.resolve source = { s with
            resolver := { s.resolver with
              record := { s.resolver.record with resolved := false }
              miss := some ⟨4 * s.resolver.mode + s.resolver.accessory, position / 25, source⟩
              missUnread := true }
            handoffs := { s.handoffs with
              stab := s.handoffs.stab ++ (if s.resolver.record.resolved then [.unresolved] else []) } })) ∧
      (s.zoom.state ∈ [.unhomed, .homing, .fault] →
        s.resolve source = { s with
          resolver := { s.resolver with record := { s.resolver.record with resolved := false } }
          handoffs := { s.handoffs with
            stab := s.handoffs.stab ++ (if s.resolver.record.resolved then [.unresolved] else []) } }))

/-- R26 to R28: the two changes of the optic context. SET_MODE is refused with PINNED while the record is pinned; naming the mode
in force it is answered DONE and resolves nothing; otherwise the mode is set and a resolution with source CONTEXT is made. An
accessory code is taken at the second sample that reads it: in standby it comes into force at once; while the record is pinned it
is held as pending and a resolution deferred; otherwise it comes into force and a resolution with source CONTEXT is made. The
levels read are recorded in `pins`. (A settle of 0 that the event starts expires within it, which is the model's reading, log
11.) -/
def Obligations.ContextChangesByModeAndAccessory : Prop :=
  (∀ (s : State) (m : Fin 4), s.ready →
     ((s.resolver.slotPin = true ∨ s.resolver.sweepPin = true) →
       exec (.setMode [BitVec.ofNat 8 m.val]) s = .next (s.answer ⟨.pinned, []⟩)) ∧
     (s.resolver.slotPin = false → s.resolver.sweepPin = false →
       (s.resolver.mode = m.val → exec (.setMode [BitVec.ofNat 8 m.val]) s = .next (s.answer ⟨.done, []⟩)) ∧
       (s.resolver.mode ≠ m.val →
         exec (.setMode [BitVec.ofNat 8 m.val]) s = .next
           ((({ s with resolver := { s.resolver with mode := m.val } } : State).resolve .context).settleZero.answer
             ⟨.done, []⟩))) ∧
     ∀ b : Byte, 3 < b.toNat → exec (.setMode [b]) s = .next (s.answer ⟨.badParameter, []⟩)) ∧
  ∀ (a1 a0 : Bool) (s : State) (c : Nat) (lines : Pins), c = 2 * a1.toNat + a0.toNat →
    lines = { s.pins with asense1 := a1, asense0 := a0 } →
    ((c ≠ s.resolver.lastSample ∨ c = s.resolver.sensed) → exec (.accessorySample a1 a0) s =
      .next { s with pins := lines, resolver := { s.resolver with lastSample := c } }) ∧
    (c = s.resolver.lastSample → c ≠ s.resolver.sensed →
      (s.standby = true → exec (.accessorySample a1 a0) s = .next ({ s with
        pins := lines
        resolver := { s.resolver with lastSample := c, sensed := c, accessory := c, pendingCode := none } } :
          State).settleZero) ∧
      (s.standby = false → (s.resolver.slotPin = true ∨ s.resolver.sweepPin = true) →
        (c = s.resolver.accessory → exec (.accessorySample a1 a0) s = .next ({ s with
          pins := lines
          resolver := { s.resolver with lastSample := c, sensed := c, pendingCode := none } } : State).settleZero) ∧
        (c ≠ s.resolver.accessory → exec (.accessorySample a1 a0) s = .next ({ s with
          pins := lines
          resolver := { s.resolver with
            lastSample := c, sensed := c, pendingCode := some c, deferred := true } } : State).settleZero)) ∧
      (s.standby = false → s.resolver.slotPin = false → s.resolver.sweepPin = false →
        (c = s.resolver.accessory → exec (.accessorySample a1 a0) s = .next ({ s with
          pins := lines, resolver := { s.resolver with lastSample := c, sensed := c } } : State).settleZero) ∧
        (c ≠ s.resolver.accessory → exec (.accessorySample a1 a0) s = .next (({ s with
          pins := lines
          resolver := { s.resolver with
            lastSample := c, sensed := c, accessory := c } } : State).resolve .context).settleZero)))

/-- R35: the resolver examines a report of an applied update. With the record resolved, a report that names its source calls
for a resolution with source UPDATE and any other does nothing; with it unresolved and ZOOM homed, a report of a valid entry
that matches the wanted pair, which is that of the band waited for while ZOOM waits, does so too; with ZOOM not homed nothing
is done. (Reports wait in flight, oldest first, log 1; what reaches the resolver later finds them all examined, log 33. A settle
of 0 that the event starts expires within it, log 11.) -/
def Obligations.UpdateReportIsExamined : Prop :=
  (∀ (r : Report) (rest : List Report) (s : State), s.handoffs.reports = r :: rest → exec .updateReport s = .next
    (({ s with handoffs := { s.handoffs with reports := rest } } : State).examine r).settleZero) ∧
  ∀ (s : State) (r : Report),
    (s.takeReports = s.handoffs.reports.foldl State.examine { s with handoffs := { s.handoffs with reports := [] } }) ∧
    (∀ i : Fin 32, s.resolver.record.resolved = true → s.resolver.record.source = some i →
      ((∃ v, (i, v) ∈ r) → s.examine r = s.resolve .update) ∧ ((∀ v, (i, v) ∉ r) → s.examine r = s)) ∧
    (s.resolver.record.resolved = false →
      (∀ (band : Nat) (pair : Pair),
        ((∃ position, s.zoom.position = some position ∧ s.zoom.state ∈ [.idle, .waking, .moving, .settling] ∧
            band = position / 25) ∨ (s.zoom.state = .waitMap ∧ s.travel.bandWaited = some band)) →
        pair = ⟨4 * s.resolver.mode + s.resolver.accessory, band⟩ →
        ((∃ j : Fin 32, (j, true) ∈ r ∧ (s.map.entries[j]).matchesPair pair = true) → s.examine r = s.resolve .update) ∧
        ((∀ j : Fin 32, (j, true) ∈ r → (s.map.entries[j]).matchesPair pair = false) → s.examine r = s)) ∧
      (s.zoom.state ∈ [.unhomed, .homing, .fault] → s.examine r = s))

/-- R29, R33, R36, R37, R43, R83, R84, R181: every step keeps the laws of the record: while it is pinned it is resolved and ZOOM
rests; a pin is held for a slot or a sweep; it is resolved only while ZOOM is homed; in standby it is unresolved and ZOOM rests. -/
def Obligations.StepKeepsTheRecordLaw : Prop :=
  ∀ s t : State, s.RecordLaw → step s = .next t → t.RecordLaw

/-- R16, R40, R65, R102, R115, R134, R147, R163, R171, R177 to R179: the requests that read state answer DONE with the data of
their rule, item by item, and change nothing but the mark that their rule clears. STATUS lists the attention sources in the
order of their table, and ATTN is high exactly while one is set. Items take the bytes of their range, low byte first; a named
choice is sent as its place in its list, a result code as its value; an item that may be absent has a presence byte. (That a
position of IRIS takes one byte is the model's reading, log 5; so is which items share a presence byte, and that a list written
with the word absent is numbered without it, log 6. That the head-blocked item of MAP_STATUS is the test of R18 made afresh at
the reading is the model's choice, log 35.) -/
def Obligations.ReadingsClearOnlyTheirMarks : Prop :=
  (∀ (s : State), s.link = .free →
    exec (.mapStatus []) s = .next { s with
      map := { s.map with rejectionUnread := false }, link := .working ⟨.done, s.mapStatusData⟩ false } ∧
    exec (.readLens []) s = .next { s with
      resolver := { s.resolver with missUnread := false }, link := .working ⟨.done, s.resolver.bytes⟩ false } ∧
    (∀ (p : Bytes) (a : AxisId), axisParam p = some a → exec (.axisRead p) s = .next (s.answer ⟨.done, s.axisData a⟩)) ∧
    exec (.status []) s = .next (s.answer ⟨.done,
      (attentionSources s).map (fun b => if b then 1#8 else 0#8) ++ [if s.standby then 1#8 else 0#8]⟩) ∧
    (s.standby = false →
      exec (.sweepRead []) s = .next (s.answer ⟨.done, s.sweep.record.bytes⟩) ∧
      exec (.exposureRead []) s = .next (s.answer ⟨.done, s.exposure.bytes⟩) ∧
      exec (.stabRead []) s = .next { s with
        stab := { s.stab with faultUnread := false }, link := .working ⟨.done, s.stab.bytes⟩ false } ∧
      exec (.releaseRead []) s = .next { s with
        release := { s.release with burst := { s.release.burst with notice := false } }
        link := .working ⟨.done, s.release.bytes⟩ false } ∧
      (∃ zones : Vector ZoneRecord 8, (∀ z : Fin 8, zones[z] = { s.meter.zones[z] with fresh := false }) ∧
        exec (.meterRead []) s = .next { s with
          meter := { s.meter with zones := zones, notice := false }, link := .working ⟨.done, s.meter.bytes⟩ false }) ∧
      ∀ i : Fin 12, exec (.slotRead [BitVec.ofNat 8 i.val]) s = .next { s with
        release := { s.release with slots := s.release.slots.set i { s.release.slots[i] with notice := false } }
        link := .working ⟨.done, (s.release.slots[i]).bytes i⟩ false })) ∧
  (∀ (s : State),
    attentionSources s = [s.zoom.completion.pending, s.focus.completion.pending, s.iris.completion.pending,
      s.map.rejectionUnread, s.resolver.missUnread, s.sweep.record.awaiting, s.meter.notice, s.stab.faultUnread] ++
      (List.finRange 12).map (fun i => (s.release.slots[i]).notice) ++ [s.release.burst.notice] ∧
    (attn s = true ↔ (∃ a : AxisId, (s.axis a).completion.pending = true) ∨ s.map.rejectionUnread = true ∨
      s.resolver.missUnread = true ∨ s.sweep.record.awaiting = true ∨ s.meter.notice = true ∨
      s.stab.faultUnread = true ∨ (∃ i : Fin 12, (s.release.slots[i]).notice = true) ∨ s.release.burst.notice = true)) ∧
  (∀ (n : Nat) (i : Int) (b : Bool), u8 n = [BitVec.ofNat 8 n] ∧ u16 n = u8 n ++ u8 (n / 256) ∧
    u24 n = u16 n ++ u8 (n / 65536) ∧ u32 n = u24 n ++ u8 (n / 16777216) ∧ s8 i = [BitVec.ofInt 8 i] ∧
    s16 i = u16 (BitVec.ofInt 16 i).toNat ∧ s24 i = u24 (BitVec.ofInt 24 i).toNat ∧ flag b = u8 b.toNat) ∧
  (∀ (α : Type) (width : Nat) (item : α → Bytes), optional width item none = u8 0 ++ List.replicate width 0#8 ∧
    ∀ x, optional width item (some x) = u8 1 ++ item x) ∧
  (∀ (s : State) (key : Key → Bytes) (index : Fin 32 → Bytes) (rejection : Rejection → Bytes) (miss : Miss → Bytes)
      (pair : Pair → Bytes),
    key = (fun k => u8 k.context ++ u8 k.band ++ flag k.global) → index = (fun i => u8 i.val) →
    rejection = (fun r => u8 r.kind.code ++ optional 1 index r.index ++ optional 3 key r.key ++ u8 r.reason.code ++
      index r.conflicting) →
    miss = (fun m => u8 m.context ++ u8 m.band ++ u8 m.source.code) → pair = (fun q => u8 q.context ++ u8 q.band) →
    (∀ blocked : Bool, (blocked = true ↔ ∃ u rest, s.map.queue = u :: rest ∧ s.map.holds s.resolver u = true) →
      s.mapStatusData = u8 s.map.queue.length ++ flag blocked ++ u8 s.map.lockCount ++ index s.map.cursor ++
        optional 1 index s.map.lastInstall ++ optional 9 rejection s.map.rejection ++ flag s.map.rejectionUnread ++
        optional 3 miss s.resolver.miss) ∧
    ∀ (r : Resolver) (f : LensFacts), f = r.record.facts →
      r.bytes = flag r.record.resolved ++ (u8 f.context ++ u8 f.band ++ flag f.global ++ flag f.drivePermit ++
        s16 f.offset ++ u16 f.far ++ u16 f.near ++ u8 f.widestIris ++ u8 f.loss ++ u8 f.gain) ++
        optional 1 index r.record.source ++ optional 2 pair r.record.pair ++ u8 (4 * r.mode + r.accessory) ++ u8 r.mode ++
        u8 r.accessory ++ optional 1 u8 r.pendingCode ++ u8 (r.slotPin.toNat + r.sweepPin.toNat) ++ flag r.slotPin ++
        flag r.sweepPin ++ optional 3 miss r.miss ++ flag r.missUnread) ∧
  (∀ (s : State) (a : AxisId) (width limit : Nat) (place : Nat → Bytes) (summary : SweepSummary → Bytes) (r : AxisRecord),
    r = s.axis a → width = (match a with | .iris => 1 | .zoom | .focus => 2) →
    place = (match a with | .iris => u8 | .zoom | .focus => u16) →
    limit = (match a with | .zoom => 1760 | .focus => 4500 | .iris => 70) →
    summary = (fun w => u16 w.stopsPlanned ++ u16 w.stopNumber ++ u16 w.stopsJudged ++ u16 w.skipped ++
      optional 2 u16 w.bestValue ++ optional 2 u16 w.bestPosition ++ optional 2 u16 w.lastValue) →
    s.axisData a = u8 r.state.code ++ optional width place r.position ++ optional width place r.target ++
      u8 r.lastDirection.code ++ u8 r.backlashRemaining ++ u8 r.hold.code ++
      optional 1 (fun m : Mover => u8 m.code) r.mover ++ u8 r.stopPending.code ++ place r.homingCount ++
      u8 r.ownership.code ++ (u16 r.profile.stepInterval ++ u8 r.profile.settle ++ u16 r.profile.holdRelease ++
        u8 r.profile.wake ++ u8 r.profile.backlash) ++ place limit ++ flag s.holdOff ++ (flag r.completion.pending ++
        optional 1 (fun o : AxisOutcome => u8 o.code) r.completion.outcome ++
        (optional width place r.completion.finalPosition ++ optional 17 summary r.completion.summary)) ++
      (match a with
        | .zoom => flag s.travel.refillTimer ++ optional 1 u8 s.travel.bandWaited
        | .focus | .iris => [])) ∧
  (∀ w : SweepRecord, w.bytes = u8 w.state.code ++ u8 w.origin.code ++ (u16 w.params.start ++ u16 w.params.last ++
    u8 w.params.stride ++ (match w.params.condition with | .reach v => u8 0 ++ u16 v | .peak v => u8 1 ++ u16 v)) ++
    u16 w.stopsPlanned ++ optional 2 u16 w.stopNumber ++ optional 2 u16 w.stopPosition ++ flag w.awaiting ++
    flag w.releasePending ++ u16 w.stopsJudged ++ optional 2 u16 w.lastValue ++
    optional 2 u16 (w.best.map fun b => b.value) ++ optional 2 u16 (w.best.map fun b => b.position) ++
    optional 2 u16 (w.best.map fun b => b.stop) ++ u16 w.skipped ++
    optional 1 (fun o : SweepOutcome => u8 o.code) w.outcome) ∧
  (∀ (m : MeterUnit) (zone : Fin 8 → Bytes), zone = (fun z => u8 z.val) →
    m.bytes = ((List.finRange 8).flatMap fun z => u8 (m.zones[z]).result.status.code ++
        optional 3 u24 (m.zones[z]).result.value ++ flag (m.zones[z]).fresh ++ flag (m.zones[z]).overwritten) ++
      flag m.enabled ++ (zone m.setup.first ++ zone m.setup.last ++ u8 m.setup.mode.code ++ u8 m.setup.trigger.code ++
        u16 m.setup.target ++ flag m.setup.notify) ++ flag m.reference ++ flag m.running ++
      optional 2 (fun w : Working => zone w.first ++ zone w.last) m.working ++
      optional 1 (fun w : Working => u8 w.mode.code) m.working ++ optional 2 (fun w : Working => u16 w.target) m.working ++
      optional 1 zone m.zone ++ optional 1 (fun p : Phase => u8 p.code) m.phase ++ flag m.notice) ∧
  (∀ (e : ExposureUnit) (settings : Settings → Bytes) (deficit : Option Nat → Bytes) (solution : Solution → Bytes)
      (lockEv : Option Int) (lockMark : Option Bool),
    settings = (fun g => u24 g.time ++ u8 g.iris ++ u8 g.gain) →
    deficit = (fun d => flag d.isSome ++ optional 1 u8 d) →
    solution = (fun x => settings x.solved ++ optional 2 s16 x.ev ++ u8 x.mode.code ++ optional 1 u8 x.point ++
      u8 x.chosenIris ++ u8 x.chosenGain ++ u8 x.widestIris ++ flag x.locked ++ flag x.uncorrected ++ deficit x.deficit) →
    (match e.lock with
      | .held ev uncorrected => lockEv = some ev ∧ lockMark = some uncorrected
      | .none | .pending => lockEv = none ∧ lockMark = none) →
    e.bytes = (flag e.scene.figures.isSome ++ optional 2 u16 (e.scene.figures.map fun f => f.b) ++
        optional 1 u8 (e.scene.figures.map fun f => f.loss) ++ optional 2 s16 (e.scene.figures.map fun f => f.ev) ++
        flag e.scene.uncorrected ++ u16 e.scene.sweepCount) ++
      (u8 (match e.lock with | .none => 0 | .pending => 1 | .held _ _ => 2) ++ optional 2 s16 lockEv) ++
      optional 1 flag lockMark ++ optional 19 solution e.solution ++
      (((List.finRange 8).flatMap fun z => u8 e.setup.weights[z]) ++ s8 e.setup.compensation ++ u8 e.setup.mode.code ++
        settings e.setup.manual) ++ u8 e.program.length ++
      optional 2 (fun g : Staging => u8 g.total ++ u8 g.points.length) e.staging) ∧
  (∀ t : Stabilizer, t.bytes = u8 t.state.code ++ flag t.enabled ++ u16 t.panThreshold ++ s16 t.yaw.position ++
    s16 t.pitch.position ++ s24 t.yaw.integrator ++ s24 t.pitch.integrator ++
    (flag t.yaw.panning ++ u8 t.yaw.fast ++ u8 t.yaw.quiet) ++ (flag t.pitch.panning ++ u8 t.pitch.fast ++
    u8 t.pitch.quiet) ++ u8 t.gain ++ flag t.resolved ++ flag t.faultUnread ++ flag t.exposureOpen ++ flag t.limitMark ++
    flag t.leftActive) ∧
  (∀ (r : Release) (slot : Fin 12 → Bytes), slot = (fun i => u8 i.val) →
    r.bytes = u8 r.state.code ++ u8 (if r.fullTaken then 2 else if r.halfTaken then 1 else 0) ++
      (u8 r.setup.mode.code ++ u8 r.setup.burstLimit ++ flag r.setup.focusPriority ++ flag r.setup.afOnHalf ++
        flag r.setup.aeLockOnHalf ++ flag r.setup.steadyWait) ++
      optional 1 (fun o : HalfSweep => u8 o.code) r.sweepOutcome ++ flag r.sweepOwed ++ flag r.lockAwaited ++
      flag r.awaitingFocus ++ optional 1 (fun c : Result => u8 c.code) r.lastRefusal ++
      (flag r.burst.running ++ u8 r.burst.shotsArmed ++ optional 1 slot r.burst.current ++ flag r.burst.shotDue ++
        optional 1 (fun e : EndReason => u8 e.code) r.burst.endReason ++ flag r.burst.notice) ++ flag r.stallTimer ++
      (optional 1 slot r.control.armed ++ flag r.control.irisSettled ++ u8 r.control.steady.code) ++
      (u16 r.sizeTable[0] ++ u16 r.sizeTable[1] ++ u16 r.sizeTable[2] ++ u16 r.sizeTable[3]) ++ u24 r.storeFree ++
      u24 r.heldSum ++ u32 r.shotCounter ++
      (List.finRange 12).flatMap fun i => u8 (r.slots[i]).state.code ++ flag (r.slots[i]).notice) ∧
  (∀ (v : Slot) (i : Fin 12),
    (v.shot = none → v.bytes i = u8 i.val ++ u8 v.state.code) ∧
    ∀ x : Shot, v.shot = some x → v.bytes i = u8 i.val ++ u8 v.state.code ++ (u8 x.origin.code ++ u32 x.number ++
      u8 x.burstIndex ++ (u24 x.settings.time ++ u8 x.settings.iris ++ u8 x.settings.gain) ++ optional 2 s16 x.ev ++
      (flag x.deficit.isSome ++ optional 1 u8 x.deficit) ++ u8 x.context ++ u8 x.band ++ u16 x.zoomPosition ++
      optional 2 u16 v.focus ++ optional 1 flag (v.marks.map fun m => m.shake) ++
      optional 1 flag (v.marks.map fun m => m.unsteady) ++ optional 2 u16 v.reservation ++ optional 3 u24 v.size ++
      flag v.notice)) ∧
  [RejectionKind.write, .install].map RejectionKind.code = List.range 2 ∧
  [MissSource.zoomStep, .context, .update, .wake].map MissSource.code = List.range 4 ∧
  [AxisState.unhomed, .homing, .idle, .waking, .moving, .waitMap, .settling, .fault].map AxisState.code = List.range 8 ∧
  [Direction.towardHome, .awayFromHome].map Direction.code = List.range 2 ∧
  [HoldState.energized, .released].map HoldState.code = List.range 2 ∧
  [Mover.host, .tracking, .sweep, .exposure].map Mover.code = List.range 4 ∧
  [StopPending.none, .stop, .clear].map StopPending.code = List.range 3 ∧
  [Ownership.none, .sweep, .exposure].map Ownership.code = List.range 3 ∧
  [AxisOutcome.homed, .homeNotFound, .reached, .stopped, .bandForbidden, .mapMiss, .sweepHit, .sweepMiss,
    .sweepOverrun].map AxisOutcome.code = List.range 9 ∧
  [SweepState.none, .travelling, .awaiting, .returning, .stopping, .ended].map SweepState.code = List.range 6 ∧
  [SweepOrigin.host, .half].map SweepOrigin.code = List.range 2 ∧
  [SweepOutcome.hit, .miss, .overrun, .released, .stopped].map SweepOutcome.code = List.range 5 ∧
  [MeterMode.single, .continuous].map MeterMode.code = List.range 2 ∧
  [Trigger.request, .frame, .half].map Trigger.code = List.range 3 ∧
  [ZoneStatus.none, .ok, .over, .under, .refFault, .ref].map ZoneStatus.code = List.range 6 ∧
  [Phase.reference, .sensor].map Phase.code = List.range 2 ∧
  [ExposureMode.auto, .manual].map ExposureMode.code = List.range 2 ∧
  [StabState.off, .centering, .active, .panning, .held, .fault].map StabState.code = List.range 6 ∧
  [ReleaseState.opened, .preparing, .ready, .firing, .finishing].map ReleaseState.code = List.range 5 ∧
  [ReleaseMode.single, .burst].map ReleaseMode.code = List.range 2 ∧
  [HalfSweep.running, .afSkipped, .ended .hit, .ended .miss, .ended .overrun, .ended .released,
    .ended .stopped].map HalfSweep.code = List.range 7 ∧
  [EndReason.limit, .released, .stalled, .storeFull, .cleared, .notFocused, .wrongState, .noLens, .busy, .notHomed,
    .noExposure, .noSlot].map EndReason.code = List.range 12 ∧
  [Steady.met, .waiting, .expired].map Steady.code = List.range 3 ∧
  [SlotState.free, .armed, .exposing, .exposed, .developed].map SlotState.code = List.range 5 ∧
  [ShotOrigin.switch, .shoot].map ShotOrigin.code = List.range 2 ∧
  [Result.done, .started, .queued, .notFound, .none, .unknownRequest, .badParameter, .busy, .notHomed, .axisFault,
    .uncollected, .holdOff, .outOfLimits, .noLens, .pinned, .duplicateKey, .queueFull, .updatesPending, .notAwaiting,
    .noExposure, .noSlot, .noCapacity, .notFocused, .wrongState, .standby, .linkError].map Result.code =
      List.range' 1 26

/-! ### The axes (03) -/

/-- R51: AXIS_HOME is refused in the order of its checks; otherwise it is answered STARTED and the axis enters HOMING without
a position. RELEASED coils are energized and the wake time runs; with ENERGIZED coils the first homing decision is made at
once: a sensor that reads active finds home without a step, any other level takes the first step. The start is handed on: the
record of a homing ZOOM becomes unresolved, a homing FOCUS gives up what it is owed. (That a homing step sets the last
direction is the model's inference, log 34. A settle of 0 that the event starts expires within it, log 11.) -/
def Obligations.HomingStartsOrIsRefused : Prop :=
  ∀ (p : Bytes) (sensor : Bool) (a : AxisId) (s t : State) (r : AxisRecord), axisParam p = some a → s.ready → r = s.axis a →
    t = (match a with
      | .zoom => { s with
          resolver := { s.resolver with record := { s.resolver.record with resolved := false } }
          handoffs := { s.handoffs with
            stab := s.handoffs.stab ++ (if s.resolver.record.resolved then [.unresolved] else []) } }
      | .focus => { s with travel := { s.travel with owedMark := false, owed := 0 } }
      | .iris => s) →
    (r.completion.pending = true → exec (.axisHome p sensor) s = .next (s.answer ⟨.uncollected, []⟩)) ∧
    (r.completion.pending = false →
      ((r.state ∉ [.unhomed, .idle, .fault] ∨ r.ownership ≠ .none ∨
          (a = .zoom ∧ (s.resolver.slotPin = true ∨ s.resolver.sweepPin = true))) →
        exec (.axisHome p sensor) s = .next (s.answer ⟨.busy, []⟩)) ∧
      (r.state ∈ [.unhomed, .idle, .fault] → r.ownership = .none →
        (a = .zoom → s.resolver.slotPin = false ∧ s.resolver.sweepPin = false) →
        (s.holdOff = true → exec (.axisHome p sensor) s = .next (s.answer ⟨.holdOff, []⟩)) ∧
        (s.holdOff = false → r.stopPending = .none →
          (r.hold = .released → exec (.axisHome p sensor) s = .next ((t.setAxis a { r with
            state := .homing, position := none, target := none, homingCount := 0, backlashRemaining := 0
            mover := some .host, joined := none, ending := .reached, hold := .energized, holdTimer := none
            wakeTimer := some r.profile.wake }).settleZero.answer ⟨.started, []⟩)) ∧
          (r.hold = .energized →
            (sensor = true → exec (.axisHome p sensor) s = .next (((t.readHome a true).setAxis a { r with
              state := .settling, position := some 0, target := some 0, homingCount := 0, backlashRemaining := 0
              lastDirection := .towardHome, mover := some .host, joined := none, ending := .homed, holdTimer := none
              stepTimer := none, wakeTimer := none, settleTimer := some r.profile.settle }).settleZero.answer
                ⟨.started, []⟩)) ∧
            (sensor = false → exec (.axisHome p sensor) s = .next (((t.readHome a false).setAxis a { r with
              state := .homing, position := none, target := none, homingCount := 1, backlashRemaining := 0
              lastDirection := .towardHome, mover := some .host, joined := none, ending := .reached, holdTimer := none
              stepTimer := some r.profile.stepInterval, motorSteps := r.motorSteps - 1 }).settleZero.answer
                ⟨.started, []⟩))))))

/-- R52, R53 and R60: a homing decision. A stop that is pending is served before the sensor is read: STOP posts STOPPED without a
position, CLEAR posts nothing. An active sensor finds home at position 0. Otherwise a homing that has taken as many steps as the
home limit faults with its coils released, and any other takes one more step. (That a homing step sets the last direction is the
model's inference, log 34. A settle of 0 that the event starts expires within it, log 11.) -/
def Obligations.HomingDecisionFindsHomeOrSteps : Prop :=
  ∀ (c : Instr) (a : AxisId) (sensor : Bool) (s t : State) (r : AxisRecord), s.decisionDue c a sensor r →
    (s.axis a).state = .homing → t = s.readHome a sensor →
    (r.stopPending = .stop → exec c s = .next (t.setAxis a { r with
      state := .unhomed, position := none, target := none, mover := none, joined := none, stopPending := .none
      releaseAtRest := false, ending := .reached, stepTimer := none, wakeTimer := none, settleTimer := none
      holdTimer := r.holdAtRest, completion := ⟨true, some .stopped, none, none⟩ }).settleZero) ∧
    (r.stopPending = .clear → exec c s = .next (t.setAxis a { r with
      state := .unhomed, position := none, target := none, mover := none, joined := none, stopPending := .none
      releaseAtRest := false, ending := .reached, stepTimer := none, wakeTimer := none, settleTimer := none
      holdTimer := r.holdAtRest }).settleZero) ∧
    (r.stopPending = .none →
      (sensor = true → exec c s = .next (t.setAxis a { r with
        state := .settling, position := some 0, target := some 0, lastDirection := .towardHome, mover := some .host
        ending := .homed, stepTimer := none, wakeTimer := none, settleTimer := some r.profile.settle }).settleZero) ∧
      (sensor = false →
        ((match a with | .zoom => 1760 | .focus => 4500 | .iris => 70) ≤ r.homingCount →
          exec c s = .next (t.setAxis a { r with
            state := .fault, mover := none, stepTimer := none, wakeTimer := none, hold := .released, holdTimer := none
            completion := ⟨true, some .homeNotFound, none, none⟩ }).settleZero) ∧
        (r.homingCount < (match a with | .zoom => 1760 | .focus => 4500 | .iris => 70) →
          exec c s = .next (t.setAxis a { r with
            lastDirection := .towardHome, homingCount := r.homingCount + 1
            stepTimer := some r.profile.stepInterval, motorSteps := r.motorSteps - 1 }).settleZero)))

/-- R54: AXIS_MOVE is refused in the order of its checks, with no effect. -/
def Obligations.MoveIsRefusedInOrder : Prop :=
  ∀ (p : Bytes) (a : AxisId) (target : Nat) (s : State) (r : AxisRecord), moveParams p = some (a, target) → s.ready →
    r = s.axis a →
    (r.state ∈ [.unhomed, .homing] → exec (.axisMove p) s = .next (s.answer ⟨.notHomed, []⟩)) ∧
    (r.state = .fault → exec (.axisMove p) s = .next (s.answer ⟨.axisFault, []⟩)) ∧
    (r.state ∈ [.idle, .waking, .moving, .waitMap, .settling] →
      (r.completion.pending = true → exec (.axisMove p) s = .next (s.answer ⟨.uncollected, []⟩)) ∧
      (r.completion.pending = false →
        (r.ownership ≠ .none → exec (.axisMove p) s = .next (s.answer ⟨.busy, []⟩)) ∧
        (r.ownership = .none →
          (s.holdOff = true → exec (.axisMove p) s = .next (s.answer ⟨.holdOff, []⟩)) ∧
          (s.holdOff = false →
            (a = .focus → s.resolver.record.resolved = false →
              exec (.axisMove p) s = .next (s.answer ⟨.noLens, []⟩)) ∧
            (a = .focus → s.resolver.record.resolved = true →
              (target < s.resolver.record.facts.far ∨ s.resolver.record.facts.near < target) →
              exec (.axisMove p) s = .next (s.answer ⟨.outOfLimits, []⟩)) ∧
            (a = .zoom → (s.resolver.slotPin = true ∨ s.resolver.sweepPin = true) →
              exec (.axisMove p) s = .next (s.answer ⟨.busy, []⟩))))))

/-- R55, R56, R53 and R81: a move that passes its checks is answered STARTED. In WAKING or MOVING it replaces the target and
cancels a stop; in IDLE or SETTLING it begins a move, which settles at its target, steps on ENERGIZED coils, or wakes RELEASED
ones. A move on FOCUS stands in place of what it is owed; a ZOOM move in the settle of a homing first has the homing resolved.
(That a move taken in WAKING or MOVING also drops a release of the coils that was to follow the cancelled stop is the model's
choice, log 37. A settle of 0 that the event starts expires within it, which is the model's reading, log 11.) -/
def Obligations.HostMoveBeginsOrRetargets : Prop :=
  ∀ (p : Bytes) (a : AxisId) (target : Nat) (s t : State) (r b : AxisRecord), moveParams p = some (a, target) → s.ready →
    s.mayMove a target → r = s.axis a →
    (r.state ∈ [.waking, .moving] →
      t = (if a = .focus then { s with travel := { s.travel with owedMark := false, owed := 0 } } else s) →
      exec (.axisMove p) s = .next ((t.setAxis a { r with
        target := some target, mover := some .host, joined := none, stopPending := .none
        releaseAtRest := false }).settleZero.answer ⟨.started, []⟩)) ∧
    (r.state ∈ [.idle, .settling] →
      t = (if a = .focus then { s with travel := { s.travel with owedMark := false, owed := 0 } }
        else if a = .zoom ∧ r.state = .settling ∧ r.ending = .homed then s.resolve .zoomStep else s) →
      b = { r with
        target := some target, mover := some .host, joined := none, ending := .reached, holdTimer := none
        settleTimer := none } →
      (r.position = some target → exec (.axisMove p) s = .next ((t.setAxis a { b with
        state := .settling, stepTimer := none, wakeTimer := none
        settleTimer := some r.profile.settle }).settleZero.answer ⟨.started, []⟩)) ∧
      (r.position ≠ some target → r.hold = .energized → exec (.axisMove p) s =
        .next (((t.setAxis a b).stepAxis a).settleZero.answer ⟨.started, []⟩)) ∧
      (r.position ≠ some target → r.hold = .released → exec (.axisMove p) s = .next ((t.setAxis a { b with
        state := .waking, hold := .energized, wakeTimer := some r.profile.wake }).settleZero.answer ⟨.started, []⟩)))

/-- R46, R49, R60 and R69: an expiry of the step interval or the wake time brings a moving axis to its decision point. A pending
STOP ends the move at the present position; a pending CLEAR brings the axis to IDLE there, with nothing posted; at its target the
axis settles; otherwise it takes a step. (A settle of 0 that the event starts expires within it, which is the model's reading,
log 11.) -/
def Obligations.DecisionPointServesStopsThenSteps : Prop :=
  (∀ (c : Instr) (a : AxisId) (sensor : Bool) (s : State) (r : AxisRecord), s.decisionDue c a sensor r →
    (s.axis a).state ∈ [.waking, .moving] →
    exec c s = .next ((s.setAxis a r).decisionPoint a).settleZero) ∧
  ∀ (a : AxisId) (s : State) (r : AxisRecord), r = s.axis a →
    (r.stopPending = .stop → s.decisionPoint a = s.setAxis a { r with
      backlashRemaining := 0, target := r.position, stopPending := .none, ending := .stopped, state := .settling
      stepTimer := none, wakeTimer := none, settleTimer := some r.profile.settle }) ∧
    (r.stopPending = .clear → ∃ rest : AxisRecord, rest = { r with
        backlashRemaining := 0, state := .idle, target := r.position, mover := none, joined := none, stopPending := .none
        ending := .reached, stepTimer := none, wakeTimer := none, settleTimer := none, releaseAtRest := false
        hold := if r.releaseAtRest then .released else r.hold
        holdTimer := if r.releaseAtRest then none else r.holdAtRest } ∧
      s.decisionPoint a = if a = .focus then (s.setAxis a rest).applyOwed else s.setAxis a rest) ∧
    (r.stopPending = .none →
      (r.target = r.position → s.decisionPoint a = s.setAxis a { r with
        backlashRemaining := 0, state := .settling, stepTimer := none, wakeTimer := none
        settleTimer := some r.profile.settle }) ∧
      (r.target ≠ r.position → s.decisionPoint a = s.stepAxis a))

/-- R46, R47 and R71 to R73: a step. The needed direction follows the target; a reversal takes the profile's backlash before any
counted step. A backlash step keeps the position, a counted step moves it by one. A counted ZOOM step out of its band asks the map
first: with a permit the record is loaded and the step taken; without one the move ends short of the band; with no entry the
zoom waits. -/
def Obligations.StepTakesBacklashThenPositions : Prop :=
  ∀ (a : AxisId) (s : State) (p q next backlash : Nat) (d : Direction) (r : AxisRecord),
    (s.axis a).position = some p → (s.axis a).target = some q → p ≠ q →
    d = (if p < q then .awayFromHome else .towardHome) →
    backlash = (if d = (s.axis a).lastDirection then (s.axis a).backlashRemaining else (s.axis a).profile.backlash) →
    next = (if p < q then p + 1 else p - 1) →
    r = { s.axis a with
      lastDirection := d, backlashRemaining := backlash, state := .moving
      stepTimer := some (s.axis a).profile.stepInterval
      motorSteps := (s.axis a).motorSteps + (if p < q then 1 else -1) } →
    (0 < backlash → s.stepAxis a = s.setAxis a { r with backlashRemaining := backlash - 1 }) ∧
    (backlash = 0 → (a = .zoom → next / 25 = p / 25) → s.stepAxis a = s.setAxis a { r with position := some next }) ∧
    (backlash = 0 → a = .zoom → next / 25 ≠ p / 25 →
      ∀ pair : Pair, pair = ⟨4 * s.resolver.mode + s.resolver.accessory, next / 25⟩ →
      (∀ i : Fin 32, s.map.lookup pair = some i → (s.map.entries[i]).drivePermit = true → s.stepAxis a = { s with
        zoom := { r with position := some next }
        resolver := { s.resolver with
          record := ⟨true, (s.map.entries[i]).facts, some i, some pair⟩, miss := none, missUnread := false }
        handoffs := { s.handoffs with
          loads := s.handoffs.loads ++ [⟨(s.map.entries[i]).facts, s.resolver.record.facts.offset⟩]
          stab := s.handoffs.stab ++ [.load (s.map.entries[i]).gain] } }) ∧
      (∀ i : Fin 32, s.map.lookup pair = some i → (s.map.entries[i]).drivePermit = false → s.stepAxis a = { s with
        zoom := { s.zoom with
          lastDirection := d, backlashRemaining := 0, target := some p, stopPending := .none, ending := .bandForbidden
          state := .settling, stepTimer := none, wakeTimer := none, settleTimer := some s.zoom.profile.settle
          mover := some .host } }) ∧
      (s.map.lookup pair = none → s.stepAxis a = { s with
        zoom := { s.zoom with
          lastDirection := d, backlashRemaining := 0, state := .waitMap, stepTimer := none, wakeTimer := none }
        travel := { s.travel with refillTimer := true, bandWaited := some (next / 25), crossing := some d }
        resolver := { s.resolver with
          record := { s.resolver.record with resolved := false }
          miss := some ⟨4 * s.resolver.mode + s.resolver.accessory, next / 25, .zoomStep⟩, missUnread := true }
        handoffs := { s.handoffs with
          stab := s.handoffs.stab ++ (if s.resolver.record.resolved then [.unresolved] else []) } }))

/-- R74 to R77: what ends or keeps the zoom's wait for a band. A resolution finds a permitted entry: it is loaded and the step
taken; a forbidden one: the move ends short of the band and the old band is resolved; none: the miss is written and the wait goes
on. The refill timer's expiry and AXIS_STOP end the move on the old band; AXIS_MOVE beyond the edge changes the target alone, and
any other move ends the wait and goes on from the old band. (A settle of 0 that the event starts expires within it, which is
the model's reading, log 11.) -/
def Obligations.WaitingZoomIsRefilledOrEnds : Prop :=
  ∀ (s past : State) (p band : Nat) (d : Direction) (pair : Pair), s.zoom.state = .waitMap → s.zoom.position = some p →
    s.travel.bandWaited = some band → s.travel.crossing = some d → s.resolver.slotPin = false →
    s.resolver.sweepPin = false → s.standby = false →
    pair = ⟨4 * s.resolver.mode + s.resolver.accessory, band⟩ →
    past = { s with travel := { s.travel with refillTimer := false, bandWaited := none, crossing := none } } →
    (∀ (source : MissSource),
      (∀ i : Fin 32, s.map.lookup pair = some i → (s.map.entries[i]).drivePermit = true → s.resolve source = { past with
        zoom := { s.zoom with
          lastDirection := d, state := .moving, position := some (match d with | .towardHome => p - 1 | .awayFromHome => p + 1)
          stepTimer := some s.zoom.profile.stepInterval
          motorSteps := s.zoom.motorSteps + (match d with | .towardHome => -1 | .awayFromHome => 1) }
        resolver := { s.resolver with
          record := ⟨true, (s.map.entries[i]).facts, some i, some pair⟩, miss := none, missUnread := false }
        handoffs := { s.handoffs with
          loads := s.handoffs.loads ++ [⟨(s.map.entries[i]).facts, s.resolver.record.facts.offset⟩]
          stab := s.handoffs.stab ++ [.load (s.map.entries[i]).gain] } }) ∧
      (∀ i : Fin 32, s.map.lookup pair = some i → (s.map.entries[i]).drivePermit = false →
        s.resolve source = (({ past with zoom := { s.zoom with
          backlashRemaining := 0, target := some p, stopPending := .none, ending := .bandForbidden, state := .settling
          stepTimer := none, wakeTimer := none, settleTimer := some s.zoom.profile.settle
          mover := some .host } } : State).resolve .zoomStep)) ∧
      (s.map.lookup pair = none → s.resolve source = { s with
        resolver := { s.resolver with
          record := { s.resolver.record with resolved := false }
          miss := some ⟨4 * s.resolver.mode + s.resolver.accessory, band, source⟩, missUnread := true }
        handoffs := { s.handoffs with
          stab := s.handoffs.stab ++ (if s.resolver.record.resolved then [.unresolved] else []) } })) ∧
    (s.travel.refillTimer = true → exec .refillTimerExpiry s = .next (({ past with zoom := { s.zoom with
      target := some p, stopPending := .none, ending := .mapMiss, state := .settling, stepTimer := none, wakeTimer := none
      settleTimer := some s.zoom.profile.settle, mover := some .host } } : State).resolve .zoomStep).settleZero) ∧
    (s.link = .free → exec (.axisStop [0#8]) s = .next ((({ past with zoom := { s.zoom with
      target := some p, stopPending := .none, ending := .stopped, state := .settling, stepTimer := none, wakeTimer := none
      settleTimer := some s.zoom.profile.settle, mover := some .host } } : State).resolve .zoomStep).settleZero.answer
        ⟨.started, []⟩)) ∧
    (∀ (x : Bytes) (target : Nat), s.link = .free → moveParams x = some (.zoom, target) → s.mayMove .zoom target →
      ((match d with | .towardHome => target < p | .awayFromHome => p < target) →
        exec (.axisMove x) s = .next (({ s with zoom := { s.zoom with target := some target } } : State).settleZero.answer
          ⟨.started, []⟩)) ∧
      ((match d with | .towardHome => p ≤ target | .awayFromHome => target ≤ p) →
        exec (.axisMove x) s = .next (((({ past with zoom := { s.zoom with
          state := .moving, target := some target } } : State).resolve .zoomStep).decisionPoint .zoom).settleZero.answer
            ⟨.started, []⟩)))

/-- R60, R61 and R162: AXIS_STOP by the state of the axis, where no sweep runs on it. It is answered STARTED exactly when the
stop's end is posted to the host; a second stop changes nothing. A stop of an IRIS that wakes or moves for an armed slot
cancels the arm as well: the slot is cleared, IRIS and the pin are given back, the last refusal is BUSY, the burst's notice is
set, and a burst on that slot ends with BUSY, as FINISHING on it ends; on an owned IRIS that settles or rests the stop changes
nothing. A cancelled arm writes no refusal where FULL let go made it (R168). (That AXIS_STOP is answered DONE while a stop of
kind CLEAR is pending is the model's reading, log 13; that IRIS goes on to its target after FULL let go is its choice, log 40. A
settle of 0 that the event starts expires within it, log 11.) -/
def Obligations.StopEndsTheMoveOrTheHoming : Prop :=
  (∀ (p : Bytes) (a : AxisId) (s : State) (r : AxisRecord) (told : State → State), axisParam p = some a → s.ready →
    r = s.axis a → (a = .focus → s.sweep.record.state ∉ [.travelling, .awaiting, .returning, .stopping]) →
    told = (fun t => if a = .iris ∧ (r.mover = some .exposure ∨ r.joined = some .exposure) then t.irisStopped else t) →
    (r.state ∈ [.unhomed, .idle, .fault, .settling] → exec (.axisStop p) s = .next (s.settleZero.answer ⟨.done, []⟩)) ∧
    (r.state = .waking → r.stopPending = .none → exec (.axisStop p) s = .next ((told (s.setAxis a { r with
      target := r.position, stopPending := .none, ending := .stopped, state := .settling, stepTimer := none
      wakeTimer := none, settleTimer := some r.profile.settle })).settleZero.answer
        ⟨if r.mover = some .host then .started else .done, []⟩)) ∧
    (r.state = .moving → exec (.axisStop p) s = .next ((told (s.setAxis a { r with
      stopPending := if r.stopPending = .none then .stop else r.stopPending })).settleZero.answer
        ⟨if r.mover = some .host ∧ r.stopPending ≠ .clear then .started else .done, []⟩)) ∧
    (r.state = .homing → r.wakeTimer = none → exec (.axisStop p) s = .next ((s.setAxis a { r with
      stopPending := if r.stopPending = .none then .stop else r.stopPending }).settleZero.answer
        ⟨if r.stopPending ≠ .clear then .started else .done, []⟩)) ∧
    (r.state = .homing → r.wakeTimer ≠ none → r.stopPending = .none → exec (.axisStop p) s = .next ((s.setAxis a { r with
      state := .unhomed, position := none, target := none, mover := none, joined := none, stopPending := .none
      releaseAtRest := false, ending := .reached, stepTimer := none, wakeTimer := none, settleTimer := none
      holdTimer := r.holdAtRest, completion := ⟨true, some .stopped, none, none⟩ }).settleZero.answer
        ⟨.started, []⟩))) ∧
  (∀ s : State, (s.release.control.armed = none → s.irisStopped = s) ∧
    ∀ i : Fin 12, s.release.control.armed = some i →
      ((s.release.slots[i]).state ≠ .armed → s.irisStopped = s) ∧
      ((s.release.slots[i]).state = .armed → s.irisStopped = s.cancelArm i (some .busy) .busy)) ∧
  ∀ (s t : State) (i : Fin 12) (refusal : Option Result) (reason : EndReason) (r : Release),
    t = ({ s with iris := { s.iris with ownership := .none } } : State).releasePin .slot →
    r = { s.release with
      slots := s.release.slots.set i Slot.cleared, control := ExposureControl.cleared, steadyTimer := false
      lastRefusal := match refusal with | some code => some code | none => s.release.lastRefusal
      burst := { s.release.burst with notice := true } } →
    ((s.release.burst.running = false ∨ s.release.burst.current ≠ some i) →
      s.cancelArm i refusal reason = { t with release := r.finish i }) ∧
    (s.release.burst.running = true → s.release.burst.current = some i →
      s.cancelArm i refusal reason = { t with release := ({ r with
        state := if r.state = .firing then (if r.sweepOwed || r.lockAwaited then .preparing else .ready) else r.state
        burst := { r.burst with
          running := false, current := none, shotDue := false, endReason := some reason } } : Release).finish i }) ∧
    Slot.cleared = ⟨.free, none, none, none, none, none, false⟩

/-- R45, R50, R53, R58, R62, R72, R75 and R81: a settle expires. The axis comes to IDLE at its position; a host move posts its
completion with the outcome that it held; the hold-release timer starts. A completed ZOOM homing resolves the band of
position 0 and a completed FOCUS homing is brought within the limits; the release is told of an exposure iris, the sweep of
its stop; and FOCUS takes what it is owed. A settle of 0 that an event starts expires within it, on ZOOM, then FOCUS, then
IRIS, which is the model's reading (log 11). -/
def Obligations.SettleExpiryEndsTheMove : Prop :=
  (∀ (a : AxisId) (s : State), (s.axis a).state = .settling → (s.axis a).settleTimer ≠ none →
    exec (.settleTimerExpiry a) s = .next (s.settleExpired a).settleZero) ∧
  (∀ (a : AxisId) (s : State) (r rest : AxisRecord), r = s.axis a →
    rest = { r with
      state := .idle, target := r.position, mover := none, joined := none, stopPending := .none, ending := .reached
      stepTimer := none, wakeTimer := none, settleTimer := none, holdTimer := r.holdAtRest
      completion := if r.mover = some .host then ⟨true, some (match r.ending with
        | .reached => .reached | .stopped => .stopped | .homed => .homed | .bandForbidden => .bandForbidden
        | .mapMiss => .mapMiss), r.position, none⟩ else r.completion } →
    (a = .zoom → r.ending ≠ .homed → s.settleExpired a = { s with zoom := rest }) ∧
    (a = .zoom → r.ending = .homed → s.settleExpired a = ({ s with zoom := rest } : State).resolve .zoomStep) ∧
    (a = .iris → r.mover ≠ some .exposure → r.joined ≠ some .exposure → s.settleExpired a = { s with iris := rest }) ∧
    (a = .iris → (r.mover = some .exposure ∨ r.joined = some .exposure) →
      s.settleExpired a = ({ s with iris := rest } : State).irisSettled) ∧
    (a = .focus → r.mover ≠ some .sweep → r.ending ≠ .homed →
      s.settleExpired a = ({ s with focus := rest } : State).applyOwed) ∧
    (a = .focus → r.mover ≠ some .sweep → r.ending = .homed →
      s.settleExpired a = ({ s with focus := rest } : State).focusHomed.applyOwed) ∧
    (a = .focus → r.mover = some .sweep → r.ending ≠ .homed →
      (s.sweep.record.state = .travelling → s.settleExpired a = ({ s with
        focus := rest
        sweep := { s.sweep with
          record := { s.sweep.record with state := .awaiting, awaiting := true }, deadline := true } } : State).applyOwed) ∧
      (s.sweep.record.state = .returning →
        s.settleExpired a = (({ s with focus := rest } : State).endSweep .hit).applyOwed) ∧
      (s.sweep.record.state = .stopping →
        s.settleExpired a = (({ s with focus := rest } : State).endSweep .stopped).applyOwed))) ∧
  ∀ s : State, s.settleZero = ((s.settleNow .zoom).settleNow .focus).settleNow .iris ∧
    (s.noZeroSettle → s.settleZero = s) ∧
    ∀ a : AxisId,
      ((s.axis a).state = .settling → (s.axis a).settleTimer = some 0 → s.settleNow a = s.settleExpired a) ∧
      (((s.axis a).state ≠ .settling ∨ (s.axis a).settleTimer ≠ some 0) → s.settleNow a = s)

/-- R64 and R177: AXIS_COLLECT returns a pending completion, which has an outcome, and clears its flag: the outcome, the final
position and the sweep summary (R62, R101), the last two where they are present; with none pending it is answered NONE. (The
width of a position is the model's reading, log 5, as are the presence bytes within the summary, log 6.) -/
def Obligations.CollectReturnsTheCompletionOnce : Prop :=
  (∀ (p : Bytes) (s : State), s.ready →
    (∀ a : AxisId, axisParam p = some a →
      ((s.axis a).completion.pending = true → exec (.axisCollect p) s = .next ((s.setAxis a { s.axis a with
        completion := { (s.axis a).completion with pending := false } }).answer
          ⟨.done, (s.axis a).completion.collectData a⟩)) ∧
      ((s.axis a).completion.pending = false → exec (.axisCollect p) s = .next (s.answer ⟨.none, []⟩))) ∧
    (axisParam p = none → exec (.axisCollect p) s = .next (s.answer ⟨.badParameter, []⟩))) ∧
  ∀ (c : Completion) (a : AxisId) (o : AxisOutcome), c.outcome = some o →
    c.collectData a = u8 o.code ++
      (match a with
        | .iris => optional 1 u8 c.finalPosition
        | .zoom | .focus => optional 2 u16 c.finalPosition) ++
      optional 17 (fun w : SweepSummary => u16 w.stopsPlanned ++ u16 w.stopNumber ++ u16 w.stopsJudged ++
        u16 w.skipped ++ optional 2 u16 w.bestValue ++ optional 2 u16 w.bestPosition ++ optional 2 u16 w.lastValue)
        c.summary

/-- R66 and R67: AXIS_PROFILE is refused unless every axis rests; otherwise the profile is replaced, a hold-release timer that runs
is restarted for the new time or stopped, and the hold-off starts. R50, R60 and R67: the expiries of the hold-release timer and of
the hold-off. -/
def Obligations.ProfileIsReplacedAndHeldOff : Prop :=
  (∀ (p : Bytes) (a : AxisId) (n : Profile) (s : State), profileParams p = some (a, n) → s.ready →
    ((∃ b : AxisId, (s.axis b).state ∉ [.unhomed, .idle, .fault]) →
      exec (.axisProfile p) s = .next (s.answer ⟨.busy, []⟩)) ∧
    ((∀ b : AxisId, (s.axis b).state ∈ [.unhomed, .idle, .fault]) →
      exec (.axisProfile p) s = .next ((({ s with holdOff := true } : State).setAxis a { s.axis a with
        profile := n
        holdTimer := if (s.axis a).holdTimer = none ∨ n.holdRelease = 0 then none else some n.holdRelease }).answer
          ⟨.done, []⟩))) ∧
  ∀ s : State,
    (∀ a : AxisId, (s.axis a).holdTimer ≠ none → exec (.holdReleaseExpiry a) s = .next (s.setAxis a { s.axis a with
      hold := .released, holdTimer := none })) ∧
    exec .profileHoldOffExpiry s = .next { s with holdOff := false }

/-- R57 and R58: an internal move. On an axis that rests or settles it begins a move as R55 states; on one that wakes or
moves it replaces the target and cancels a stop; elsewhere it is not taken. Under a host move the mover stays HOST and the
owner joins. (That an internal move which joins the settle of a homing ends it as REACHED is the model's inference, log 12; that
one which joins the settle of a stopped host move does so too is its choice, log 36; and that a move taken in WAKING or MOVING
also drops a release of the coils that was to follow the cancelled stop is its choice, log 37.) -/
def Obligations.InternalMoveBeginsJoinsOrRetargets : Prop :=
  ∀ (s : State) (a : AxisId) (target : Nat) (m : Mover) (r b : AxisRecord), a ≠ .zoom → m ≠ .host → r = s.axis a →
    b = { r with
      target := some target, ending := .reached, holdTimer := none, settleTimer := none
      mover := some (if r.state = .settling ∧ r.mover = some .host then .host else m)
      joined := if r.state = .settling ∧ r.mover = some .host then some m else none } →
    (r.state ∈ [.unhomed, .homing, .fault, .waitMap] → s.internalMove a target m = s) ∧
    (r.state ∈ [.waking, .moving] → s.internalMove a target m = s.setAxis a { r with
      target := some target, stopPending := .none, releaseAtRest := false
      mover := some (if r.mover = some .host then .host else m)
      joined := if r.mover = some .host then some m else none }) ∧
    (r.state ∈ [.idle, .settling] →
      (r.position = some target → s.internalMove a target m = s.setAxis a { b with
        state := .settling, stepTimer := none, wakeTimer := none, settleTimer := some r.profile.settle }) ∧
      (r.position ≠ some target → r.hold = .energized → s.internalMove a target m = (s.setAxis a b).stepAxis a) ∧
      (r.position ≠ some target → r.hold = .released → s.internalMove a target m = s.setAxis a { b with
        state := .waking, hold := .energized, wakeTimer := some r.profile.wake }))

/-- R78 to R82: a load is tracked. It is discarded where FOCUS has no position, settles from its homing or is owned by a sweep;
while FOCUS is being stopped its delta is owed, held within -4095 to 4095; otherwise the target is shifted by the delta and by
what is owed, brought within the new limits, and a tracking move is asked for if that changes it. What is owed is applied, with a
resolved record, as FOCUS comes to IDLE, and a completed homing is brought within the limits. (Loads wait in flight, oldest
first, log 1; what reaches FOCUS later finds them all tracked, log 33. A settle of 0 that the event starts expires within it,
log 11.) -/
def Obligations.TrackingLoadMovesFocus : Prop :=
  (∀ (l : TrackLoad) (rest : List TrackLoad) (s : State), s.handoffs.loads = l :: rest → exec .trackingLoad s =
    .next (({ s with handoffs := { s.handoffs with loads := rest } } : State).track l).settleZero) ∧
  (∀ s : State, s.deliverLoads = s.handoffs.loads.foldl State.track
    { s with handoffs := { s.handoffs with loads := [] } }) ∧
  (∀ (s : State) (l : TrackLoad) (delta : Int), delta = l.facts.offset - l.reference →
    ((s.focus.state ∈ [.unhomed, .homing, .fault] ∨ (s.focus.state = .settling ∧ s.focus.ending = .homed) ∨
        s.focus.ownership = .sweep) → s.track l = s) ∧
    (s.focus.ownership ≠ .sweep →
      ((s.focus.state = .moving ∧ s.focus.stopPending ≠ .none) ∨ (s.focus.state = .settling ∧ s.focus.ending = .stopped)) →
      s.track l = { s with travel := { s.travel with
        owedMark := true, owed := max (-4095) (min 4095 (s.travel.owed + delta)) } }) ∧
    (∀ (present target : Nat), s.focus.ownership ≠ .sweep →
      (s.focus.state ∈ [.idle, .waking] ∨ (s.focus.state = .moving ∧ s.focus.stopPending = .none) ∨
        (s.focus.state = .settling ∧ s.focus.ending ≠ .homed ∧ s.focus.ending ≠ .stopped)) →
      s.focus.target = some present → l.facts.far ≤ l.facts.near →
      (target : Int) = max (l.facts.far : Int) (min (l.facts.near : Int) (present + delta + s.travel.owed)) →
      s.track l =
        (if target = present then { s with travel := { s.travel with owedMark := false, owed := 0 } }
          else ({ s with travel := { s.travel with owedMark := false, owed := 0 } } : State).internalMove .focus target
            .tracking))) ∧
  ∀ (s : State) (p target : Nat), s.focus.position = some p → s.resolver.record.facts.far ≤ s.resolver.record.facts.near →
    ((s.travel.owedMark = false ∨ s.resolver.record.resolved = false) → s.applyOwed = s) ∧
    (s.travel.owedMark = true → s.resolver.record.resolved = true → s.focus.ownership ≠ .sweep →
      (target : Int) = max (s.resolver.record.facts.far : Int) (min (s.resolver.record.facts.near : Int) (p + s.travel.owed)) →
      s.applyOwed = if target = p then { s with travel := { s.travel with owedMark := false, owed := 0 } }
        else ({ s with travel := { s.travel with owedMark := false, owed := 0 } } : State).internalMove .focus target
          .tracking) ∧
    (s.focus.target = some p →
      (s.resolver.record.resolved = false → s.focusHomed = s) ∧
      (s.resolver.record.resolved = true →
        (target : Int) = max s.resolver.record.facts.far (min s.resolver.record.facts.near p) →
        s.focusHomed = if target = p then s else s.internalMove .focus target .tracking))

/-! ### The focus sweep (05) and the pins (02 §2.4) -/

/-- R88 to R92: SWEEP_START is refused in the order of its checks, and a refusal changes nothing; otherwise it is answered
STARTED and the sweep begins. A sweep of either origin writes the record afresh, owns FOCUS and takes the pin; FOCUS is sent to
the first stop within the limits, the stops before it being counted as skipped, and with none there the sweep ends with a miss
within its start. SWEEP_PRESET replaces the preset. (That the reports and loads in flight reach the record and FOCUS before the
sweep takes them is the model's reading, log 33. A settle of 0 that the event starts expires within it, log 11.) -/
def Obligations.SweepStartsOrIsRefused : Prop :=
  (∀ (p : Bytes) (w : SweepParams) (s t : State), sweepParams p = some w → s.ready → t = s.takeReports.deliverLoads →
    s.takeHandoffs = t ∧ (s.handoffs.reports = [] → s.handoffs.loads = [] → t = s) ∧
    (∀ code : Result, t.sweepRefusal = some code → exec (.sweepStart p) s = .next (s.answer ⟨code, []⟩)) ∧
    (t.sweepRefusal = none →
      ((w.start < t.resolver.record.facts.far ∨ t.resolver.record.facts.near < w.start ∨
          w.last < t.resolver.record.facts.far ∨ t.resolver.record.facts.near < w.last) →
        exec (.sweepStart p) s = .next (s.answer ⟨.outOfLimits, []⟩)) ∧
      (t.resolver.record.facts.far ≤ w.start → w.start ≤ t.resolver.record.facts.near →
        t.resolver.record.facts.far ≤ w.last → w.last ≤ t.resolver.record.facts.near →
        exec (.sweepStart p) s = .next ((({ t with
          sweep := { t.sweep with record := ⟨.travelling, .host, w, w.planned, some 1, some w.start, false, false, 0, none,
            none, 0, none⟩ }
          focus := { t.focus with ownership := .sweep }
          resolver := { t.resolver with sweepPin := true } } : State).internalMove .focus w.start .sweep).settleZero.answer
            ⟨.started, []⟩)))) ∧
  (∀ s : State,
    (s.focus.state ∈ [.unhomed, .homing] → s.sweepRefusal = some .notHomed) ∧
    (s.focus.state = .fault → s.sweepRefusal = some .axisFault) ∧
    (s.focus.state ∉ [.unhomed, .homing, .fault] →
      (s.focus.completion.pending = true → s.sweepRefusal = some .uncollected) ∧
      (s.focus.completion.pending = false →
        ((s.focus.state ≠ .idle ∨ s.focus.ownership ≠ .none ∨
            s.sweep.record.state ∈ [.travelling, .awaiting, .returning, .stopping]) → s.sweepRefusal = some .busy) ∧
        (s.focus.state = .idle → s.focus.ownership = .none → s.sweep.record.state ∈ [.none, .ended] →
          (s.zoom.state ∈ [.waking, .moving, .waitMap] → s.sweepRefusal = some .busy) ∧
          (s.zoom.state ∉ [.waking, .moving, .waitMap] →
            (s.resolver.record.resolved = false → s.sweepRefusal = some .noLens) ∧
            (s.resolver.record.resolved = true → s.sweepRefusal = none)))))) ∧
  (∀ (s : State) (origin : SweepOrigin) (w : SweepParams) (begun : SweepRecord → State), 1 ≤ w.planned →
    (∀ r, begun r = { s with
      sweep := { s.sweep with record := r }
      focus := { s.focus with ownership := .sweep }
      resolver := { s.resolver with sweepPin := true } }) →
    (∀ k, 1 ≤ k → k ≤ w.planned → s.resolver.record.facts.far ≤ w.stopAt k →
      w.stopAt k ≤ s.resolver.record.facts.near →
      (∀ j, 1 ≤ j → j < k → s.resolver.record.facts.within (w.stopAt j) = false) →
      s.beginSweep origin w = ((begun ⟨.travelling, origin, w, w.planned, some k, some (w.stopAt k), false, false, 0, none,
        none, k - 1, none⟩).internalMove .focus (w.stopAt k) .sweep, none)) ∧
    ((∀ j, 1 ≤ j → j ≤ w.planned → s.resolver.record.facts.within (w.stopAt j) = false) →
      ∀ t : State, t = begun ⟨.ended, origin, w, w.planned, none, none, false, false, 0, none, none, w.planned,
        some .miss⟩ →
      s.beginSweep origin w = (({ t with
        sweep := { t.sweep with deadline := false }
        focus := { t.focus with ownership := .none } } : State).releasePin .sweep, some .miss))) ∧
  (∀ (f : LensFacts) (x : Nat), f.within x = true ↔ f.far ≤ x ∧ x ≤ f.near) ∧
  (∀ (w : SweepParams) (n distance : Nat), 1 ≤ w.stride → 1 ≤ n → distance = (w.last - w.start) + (w.start - w.last) →
    w.planned = (distance + w.stride - 1) / w.stride + 1 ∧
    (n < w.planned → w.start < w.last → w.stopAt n = w.start + (n - 1) * w.stride) ∧
    (n < w.planned → w.last < w.start → w.stopAt n = w.start - (n - 1) * w.stride) ∧
    (w.planned ≤ n → w.stopAt n = w.last)) ∧
  ∀ (p : Bytes) (w : SweepParams) (s : State), sweepParams p = some w → s.ready →
    exec (.sweepPreset p) s = .next (({ s with sweep := { s.sweep with preset := w } } : State).answer ⟨.done, []⟩)

/-- R92 to R99: a contrast figure. Awaited, it is counted and compared with the best; a pending release ends the sweep; a
figure that meets the threshold ends it with a hit, and one that has fallen by the margin sends FOCUS back to the best
position; otherwise the next stop within the limits is travelled to, the stops between being skipped, or the sweep ends with
a miss. At no other time is a figure taken. The deadline ends the sweep with an overrun, or on a release. (A settle of 0 that
the event starts expires within it, which is the model's reading, log 11.) -/
def Obligations.ContrastFigureIsJudged : Prop :=
  ∀ (s u : State) (r w : SweepRecord) (n q : Nat), r = s.sweep.record →
    (r.state ≠ .awaiting → s.ready → ∀ v, contrastParam (u16 v) = some v →
      exec (.sweepContrast (u16 v)) s = .next (s.answer ⟨.notAwaiting, []⟩)) ∧
    (r.state = .awaiting → s.sweep.deadline = true → exec .contrastDeadlineExpiry s =
      .next (s.endSweep (if r.releasePending then .released else .overrun)).settleZero) ∧
    ∀ (p : Bytes) (v : Nat), r.state = .awaiting → s.ready → contrastParam p = some v →
      r.stopNumber = some n → r.stopPosition = some q →
      w = { r with
        awaiting := false, stopsJudged := r.stopsJudged + 1, lastValue := some v
        best := match r.best with
          | some b => if b.value < v then some ⟨v, q, n⟩ else some b
          | none => some ⟨v, q, n⟩ } →
      u = { s with sweep := { s.sweep with record := w, deadline := false } } →
      (r.releasePending = true → exec (.sweepContrast p) s =
        .next ((u.endSweep .released).settleZero.answer ⟨.done, u16 n ++ [3#8]⟩)) ∧
      (r.releasePending = false →
        (∀ threshold, r.params.condition = .reach threshold → threshold ≤ v → exec (.sweepContrast p) s =
          .next ((u.endSweep .hit).settleZero.answer ⟨.done, u16 n ++ [1#8]⟩)) ∧
        (∀ margin b, r.params.condition = .peak margin → r.best = some b → v + margin ≤ b.value → 1 ≤ margin →
          exec (.sweepContrast p) s = .next ((({ u with
            sweep := { u.sweep with record := { w with state := .returning } } } : State).internalMove .focus b.position
              .sweep).settleZero.answer ⟨.done, u16 n ++ [1#8]⟩)) ∧
        ((∀ threshold, r.params.condition = .reach threshold → v < threshold) →
          (∀ margin b, r.params.condition = .peak margin → r.best = some b → b.value < v + margin) →
          (∀ k, n < k → k ≤ r.stopsPlanned → s.resolver.record.facts.far ≤ r.params.stopAt k →
            r.params.stopAt k ≤ s.resolver.record.facts.near →
            (∀ j, n < j → j < k → s.resolver.record.facts.within (r.params.stopAt j) = false) →
            exec (.sweepContrast p) s = .next ((({ u with
              sweep := { u.sweep with record := { w with
                state := .travelling, stopNumber := some k, stopPosition := some (r.params.stopAt k)
                skipped := r.skipped + (k - n - 1) } } } : State).internalMove .focus (r.params.stopAt k)
                  .sweep).settleZero.answer
                  ⟨.done, u16 n ++ [0#8]⟩)) ∧
          ((∀ j, n < j → j ≤ r.stopsPlanned → s.resolver.record.facts.within (r.params.stopAt j) = false) →
            exec (.sweepContrast p) s = .next ((({ u with
              sweep := { u.sweep with record := { w with
                skipped := r.skipped + (r.stopsPlanned - n) } } } : State).endSweep .miss).settleZero.answer
                  ⟨.done, u16 n ++ [2#8]⟩))))

/-- R61, R100, R101, R154 and R155: the end of a sweep. The outcome is written, FOCUS given back and then the pin released; a
host-started sweep posts the FOCUS completion with its summary, and a half-press sweep hands its outcome to the release. An
outcome that is owed is recorded, and one that is not owed is not; a full press that waits for it is armed on a hit and refused
with NOT_FOCUSED otherwise; PREPARING with nothing left to wait for becomes READY. AXIS_STOP on FOCUS stops the axis and ends
a sweep that awaits a figure; one under way ends when FOCUS comes to rest. (That the pin is released before the outcome is
handed over is the model's choice, log 39. A settle of 0 that the event starts expires within it, log 11.) -/
def Obligations.SweepEndReleasesFocusAndPin : Prop :=
  (∀ (s closed : State) (o : SweepOutcome) (r : SweepRecord), r = s.sweep.record →
    closed = ({ s with
      sweep := { s.sweep with
        record := { r with awaiting := false, state := .ended, outcome := some o }, deadline := false }
      focus := { s.focus with ownership := .none } } : State).releasePin .sweep →
    (r.origin = .host → s.endSweep o = { closed with
      focus := { closed.focus with
        completion := ⟨true,
          some (match o with
            | .hit => .sweepHit | .miss => .sweepMiss | .overrun => .sweepOverrun | .released => .stopped
            | .stopped => .stopped),
          closed.focus.position,
          some ⟨r.stopsPlanned, r.stopNumber.getD 0, r.stopsJudged, r.skipped, r.best.map fun b => b.value,
            r.best.map fun b => b.position, r.lastValue⟩⟩ } }) ∧
    (r.origin = .half → s.endSweep o = closed.sweepOutcomeNotice o) ∧
    (s.ready →
      (r.state ∈ [.travelling, .returning] → exec (.axisStop [1#8]) s = .next (({ s.stopAxis .focus with
        sweep := { s.sweep with record := { r with state := .stopping } } } : State).settleZero.answer
          ⟨if r.origin = .host then .started else .done, []⟩)) ∧
      (r.state = .stopping → exec (.axisStop [1#8]) s = .next ((s.stopAxis .focus).settleZero.answer
        ⟨if r.origin = .host then .started else .done, []⟩)) ∧
      (r.state = .awaiting → s.focus.state = .idle → exec (.axisStop [1#8]) s = .next
        ((s.endSweep .stopped).settleZero.answer ⟨if r.origin = .host then .started else .done, []⟩)))) ∧
  ∀ (s : State) (o : SweepOutcome) (r told : Release) (done : Release → Release), r = s.release →
    told = { r with sweepOutcome := some (.ended o), sweepOwed := false, awaitingFocus := false } →
    (∀ q, done q = { q with
      state := if q.state = .preparing ∧ q.sweepOwed = false ∧ q.lockAwaited = false then .ready else q.state }) →
    (r.sweepOwed = false → s.sweepOutcomeNotice o = { s with release := done r }) ∧
    (r.sweepOwed = true →
      (r.awaitingFocus = false → s.sweepOutcomeNotice o = { s with release := done told }) ∧
      (r.awaitingFocus = true → o = .hit → ∀ u : State, u = ({ s with release := told } : State).armBurst →
        s.sweepOutcomeNotice o = { u with release := done u.release }) ∧
      (r.awaitingFocus = true → o ≠ .hit → s.sweepOutcomeNotice o = { s with release := done { told with
        lastRefusal := some .notFocused
        state := if r.state = .firing then (if r.lockAwaited then .preparing else .ready) else r.state
        burst := { r.burst with
          running := false, current := none, shotDue := false, endReason := some .notFocused, notice := true } } }))

/-- R36 and R38: a holder releases its pin. A place that is not held changes nothing. While the other place is held nothing
else follows; at the last release the pending code comes into force, a deferred resolution is made with source CONTEXT, and
the map is to examine its head. The slot pin's release is answered by a notice, on which the release arms a shot that is due
(R167). (That the release of a place that is not held makes no notice is the model's reading, log 25. A settle of 0 that
the event starts expires within it, log 11.) -/
def Obligations.PinReleaseAppliesWhatWaited : Prop :=
  (∀ (s u : State) (h : PinHolder) (held other : Bool) (r : Resolver),
    held = (match h with | .slot => s.resolver.slotPin | .sweep => s.resolver.sweepPin) →
    other = (match h with | .slot => s.resolver.sweepPin | .sweep => s.resolver.slotPin) →
    r = (match h with
      | .slot => { s.resolver with slotPin := false }
      | .sweep => { s.resolver with sweepPin := false }) →
    (held = false → s.releasePin h = s) ∧
    (held = true →
      u = (if other then { s with resolver := r }
        else if r.deferred then ({ s with resolver := { r with
          accessory := r.pendingCode.getD r.accessory, pendingCode := none, deferred := false } } : State).resolve .context
        else { s with resolver := { r with accessory := r.pendingCode.getD r.accessory, pendingCode := none } }) →
      s.releasePin h = { u with handoffs := { u.handoffs with
        drains := u.handoffs.drains + (if other then 0 else 1)
        pins := u.handoffs.pins + (match h with | .slot => 1 | .sweep => 0) } })) ∧
  ∀ (s : State) (n : Nat), s.handoffs.pins = n + 1 →
    (s.release.burst.shotDue = false → exec .pinReleaseNotice s =
      .next ({ s with handoffs := { s.handoffs with pins := n } } : State).settleZero) ∧
    (s.release.burst.shotDue = true → exec .pinReleaseNotice s = .next (({ s with
      handoffs := { s.handoffs with pins := n }
      release := { s.release with burst := { s.release.burst with shotDue := false } } } : State).armBurst.settleZero))

/-! ### Metering (06) -/

/-- R105, R109, R111 to R113, R116 and R118: the metering requests and the frame-start pulse. A trigger begins a sweep of the
zones with the first zone's reference phase, if the unit is enabled, no sweep runs and the trigger is the one set up. -/
def Obligations.MeteringIsSetUpAndTriggered : Prop :=
  ∀ (s : State) (m begun : MeterUnit), m = s.meter →
    begun = { m with
      running := true, working := some ⟨m.setup.first, m.setup.last, m.setup.mode, m.setup.target⟩
      zone := some m.setup.first, phase := some .reference, referenceTime := none, counter := 0, timeBase := 0 } →
    ((m.enabled = true ∧ m.running = false ∧ m.setup.trigger = .frame) →
      exec .frameStartPulse s = .next { s with meter := begun }) ∧
    ((m.enabled = false ∨ m.running = true ∨ m.setup.trigger ≠ .frame) → exec .frameStartPulse s = .next s) ∧
    (s.ready →
      (∀ (p : Bytes) (u : MeterSetup), meterParams p = some u →
        (m.enabled = true → exec (.meterSetup p) s = .next (s.answer ⟨.busy, []⟩)) ∧
        (m.enabled = false →
          exec (.meterSetup p) s = .next (({ s with meter := { m with setup := u } } : State).answer ⟨.done, []⟩))) ∧
      (∀ on : Bool, exec (.meterEnable [if on then 1#8 else 0#8]) s =
        .next (({ s with meter := { m with enabled := on } } : State).answer ⟨.done, []⟩)) ∧
      ((m.enabled = false ∨ m.setup.trigger ≠ .request) → exec (.meterStart []) s = .next (s.answer ⟨.wrongState, []⟩)) ∧
      (m.enabled = true → m.setup.trigger = .request → m.running = true →
        exec (.meterStart []) s = .next (s.answer ⟨.busy, []⟩)) ∧
      (m.enabled = true → m.setup.trigger = .request → m.running = false →
        exec (.meterStart []) s = .next (({ s with meter := begun } : State).answer ⟨.started, []⟩)) ∧
      (m.running = true → exec (.meterStop []) s = .next (({ s with
        meter := { m with running := false, zone := none, phase := none, referenceTime := none } } : State).answer
          ⟨.done, []⟩)) ∧
      (m.running = false → exec (.meterStop []) s = .next (s.answer ⟨.done, []⟩)) ∧
      (∃ zones : Vector ZoneRecord 8, (∀ z : Fin 8, zones[z] = { m.zones[z] with overwritten := false }) ∧
        exec (.meterClear []) s = .next (({ s with meter := { m with zones := zones } } : State).answer ⟨.done, []⟩)) ∧
      ∀ on : Bool,
        (m.running = true → exec (.meterReference [if on then 1#8 else 0#8]) s = .next (s.answer ⟨.busy, []⟩)) ∧
        (m.running = false → exec (.meterReference [if on then 1#8 else 0#8]) s =
          .next (({ s with meter := { m with reference := on } } : State).answer ⟨.done, []⟩)))

/-- R106 to R110, R114 and R119: the ends of a zone's phases. A reached target begins the sensor phase, or in reference mode is
itself the zone's result; an exhausted time base is a fault of the reference; the sensor count gives OVER, UNDER, or OK with a
value of sixteen to the octave. A zone measured is written, fresh, and begins the next zone or completes the pass, which a
continuous sweep begins again; outside reference mode the pass is handed over. -/
def Obligations.ZonePhasesEnd : Prop :=
  (∀ (s : State) (w : Working) (z : Fin 8), s.meter.running = true → s.meter.working = some w → s.meter.zone = some z →
    (∀ t : Nat, s.meter.phase = some .reference → 1 ≤ t → t < 1048575 →
      (s.meter.reference = false → exec (.referenceTargetReached t) s = .next { s with
        meter := { s.meter with counter := 0, timeBase := t, phase := some .sensor, referenceTime := some t } }) ∧
      (s.meter.reference = true → exec (.referenceTargetReached t) s = .next (({ s with
        meter := { s.meter with counter := w.target, timeBase := t } } : State).zoneMeasured w z ⟨.ref, some t⟩))) ∧
    (∀ pulses : Nat, s.meter.phase = some .reference → pulses ≤ w.target → exec (.timeBaseExhausted pulses) s =
      .next (({ s with meter := { s.meter with counter := pulses, timeBase := 1048575 } } : State).zoneMeasured w z
        ⟨.refFault, none⟩)) ∧
    ∀ pulses : Nat, s.meter.phase = some .sensor →
      (16777216 ≤ pulses → exec (.sensorPhaseEnd pulses) s = .next (({ s with
        meter := { s.meter with counter := 16777216 } } : State).zoneMeasured w z ⟨.over, none⟩)) ∧
      (pulses < 16 → exec (.sensorPhaseEnd pulses) s = .next (({ s with
        meter := { s.meter with counter := pulses } } : State).zoneMeasured w z ⟨.under, none⟩)) ∧
      ∀ k : Nat, 16 ≤ pulses → pulses ≤ 16777215 → 2 ^ k ≤ pulses → pulses < 2 ^ (k + 1) →
        exec (.sensorPhaseEnd pulses) s = .next (({ s with
          meter := { s.meter with counter := pulses } } : State).zoneMeasured w z
            ⟨.ok, some (16 * k + (pulses - 2 ^ k) / 2 ^ (k - 4))⟩)) ∧
  ∀ (s : State) (w : Working) (z : Fin 8) (r : ZoneResult) (zones : Vector ZoneRecord 8) (m : MeterUnit),
    (∀ y : Fin 8, zones[y] = if y = z then ⟨r, true, (s.meter.zones[z]).overwritten || (s.meter.zones[z]).fresh⟩
      else s.meter.zones[y]) →
    m = { s.meter with zones := zones } →
    (∀ next : Fin 8, z < w.last → next.val = z.val + 1 → s.zoneMeasured w z r = { s with meter := { m with
      zone := some next, phase := some .reference, referenceTime := none, counter := 0, timeBase := 0 } }) ∧
    (w.last ≤ z → ∀ (pass : MeterUnit) (results : Vector ZoneResult 8),
      pass = (if w.mode = .continuous ∧ m.enabled = true then { m with
          notice := m.notice || m.setup.notify, zone := some w.first, phase := some .reference, referenceTime := none
          counter := 0, timeBase := 0 }
        else { m with
          notice := m.notice || m.setup.notify, running := false, zone := none, phase := none, referenceTime := none }) →
      (∀ y : Fin 8, results[y] = if w.first ≤ y ∧ y ≤ w.last then (zones[y]).result else ⟨.none, none⟩) →
      (m.reference = true → s.zoneMeasured w z r = { s with meter := pass }) ∧
      (m.reference = false → s.zoneMeasured w z r = { s with
        meter := pass, handoffs := { s.handoffs with scenes := s.handoffs.scenes ++ [results] } }))

/-! ### Exposure (07) -/

/-- R123 to R127: a pass is taken. The counted zones give the weighted mean of their values, with 384 for OVER and 63 for UNDER;
the EV is the brightness less the record's loss plus the compensation; with no weight counted the scene is invalid. A pending
lock is filled by a valid scene. AE_LOCK holds a valid scene's EV or waits for one; a new compensation takes effect at once. -/
def Obligations.SceneIsComputedAndLocked : Prop :=
  (∀ (s : State) (zones : Vector ZoneResult 8) (rest : List (Vector ZoneResult 8)), s.handoffs.scenes = zones :: rest →
    exec .sceneCompute s =
      .next (({ s with handoffs := { s.handoffs with scenes := rest } } : State).takePass zones)) ∧
  (∀ (s : State) (zones : Vector ZoneResult 8) (e : ExposureUnit) (r : LensRecord) (weight sum : Nat) (scene : Scene),
    e = s.exposure → r = s.resolver.record →
    weight = ((List.finRange 8).map fun z => if (zones[z]).status ∈ [.ok, .over, .under] then e.setup.weights[z] else 0).sum →
    sum = ((List.finRange 8).map fun z => e.setup.weights[z] * (match (zones[z]).status with
      | .ok => (zones[z]).value.getD 0
      | .over => 384
      | .under => 63
      | _ => 0)).sum →
    scene = (if weight = 0 then ⟨none, false, (e.scene.sweepCount + 1) % 65536⟩
      else ⟨some ⟨sum / weight, if r.resolved then r.facts.loss else 0,
          ((sum / weight : Nat) : Int) - (if r.resolved then r.facts.loss else 0 : Nat) + e.setup.compensation⟩,
        !r.resolved, (e.scene.sweepCount + 1) % 65536⟩) →
    ((e.lock ≠ .pending ∨ weight = 0) → s.takePass zones = { s with exposure := { e with scene := scene } }) ∧
    (∀ f : Brightness, e.lock = .pending → scene.figures = some f → s.takePass zones = { s with
      exposure := { e with scene := scene, lock := .held f.ev scene.uncorrected }
      release := { s.release with
        lockAwaited := false
        state := if s.release.state = .preparing ∧ s.release.sweepOwed = false then .ready else s.release.state } })) ∧
  ∀ s : State, s.ready →
    (∀ f : Brightness, s.exposure.scene.figures = some f → exec (.aeLock []) s = .next (({ s with
      exposure := { s.exposure with lock := .held f.ev s.exposure.scene.uncorrected } } : State).answer
        ⟨.done, u8 2 ++ [1#8] ++ s16 f.ev⟩)) ∧
    (s.exposure.scene.figures = none → exec (.aeLock []) s = .next (({ s with
      exposure := { s.exposure with lock := .pending } } : State).answer ⟨.done, u8 1 ++ [0#8, 0#8, 0#8]⟩)) ∧
    exec (.aeUnlock []) s = .next (({ s with exposure := { s.exposure with lock := .none } } : State).answer ⟨.done, []⟩) ∧
    ∀ (p : Bytes) (u : ExposureSetup), exposureParams p = some u → exec (.exposureSetup p) s = .next (({ s with
      exposure := { s.exposure with
        setup := u
        scene := { s.exposure.scene with figures := s.exposure.scene.figures.map fun f =>
          { f with ev := (f.b : Int) - f.loss + u.compensation } } } } : State).answer ⟨.done, []⟩)

/-- R129 and R130 to R133: a part of a program is staged when it starts a program or follows what is staged, and its points
rise; the part that completes the total installs the program, and a part that fails a check discards what is staged. The
solve takes the manual settings, or the last point that the EV reaches; it opens the iris no further than the lens allows and
makes up the difference with gain, marking what is missing above 96. (That the answer's mark is 0 for incomplete and 1 for
installed is the model's reading, log 6; that a total above 12 or a first point number of 0 also discards what is staged is its
choice, log 42.) -/
def Obligations.ProgramIsStagedAndSolved : Prop :=
  (∀ (s : State) (p : Bytes) (part : ProgramPart) (before all : List Point) (sound follows : Prop), s.ready →
    programParams p = some part → all = before ++ part.points →
    before = (if part.first = 1 then [] else (s.exposure.staging.map fun g => g.points).getD []) →
    (sound ↔ part.total ≤ 12 ∧ 1 ≤ part.first ∧
      ((part.total = 0 ∧ part.first = 1 ∧ part.points = []) ∨
        (part.total ≠ 0 ∧ 1 ≤ part.points.length ∧ part.points.length ≤ 6)) ∧
      ∀ x ∈ part.points, -64 ≤ x.evFrom ∧ x.evFrom ≤ 511 ∧ 20 ≤ x.settings.time ∧ x.settings.time ≤ 8000000 ∧
        x.settings.iris ≤ 63 ∧ x.settings.gain ≤ 96) →
    (follows ↔ (part.first = 1 ∨ ∃ g, s.exposure.staging = some g ∧ g.total = part.total ∧
        part.first = g.points.length + 1) ∧
      all.length ≤ part.total ∧ List.IsChain (fun x y : Point => x.evFrom < y.evFrom) all) →
    (¬(sound ∧ follows) → exec (.programWrite p) s = .next (({ s with
      exposure := { s.exposure with staging := none } } : State).answer ⟨.badParameter, []⟩)) ∧
    (sound → follows → all.length = part.total → exec (.programWrite p) s = .next (({ s with
      exposure := { s.exposure with program := all, staging := none } } : State).answer
        ⟨.done, [BitVec.ofNat 8 all.length, 1#8]⟩)) ∧
    (sound → follows → all.length ≠ part.total → exec (.programWrite p) s = .next (({ s with
      exposure := { s.exposure with staging := some ⟨part.total, all⟩ } } : State).answer
        ⟨.done, [BitVec.ofNat 8 all.length, 0#8]⟩))) ∧
  ∀ (e : ExposureUnit) (widest : Nat) (locked uncorrected : Bool) (ev : Option Int),
    (match e.lock with
      | .held v u => ev = some v ∧ uncorrected = u ∧ locked = true
      | _ => ev = e.scene.figures.map (fun f => f.ev) ∧
        uncorrected = (e.scene.figures.isSome && e.scene.uncorrected) ∧ locked = false) →
    (∀ (g : Settings) (point : Option Nat),
      ((e.setup.mode = .manual ∧ g = e.setup.manual ∧ point = none) ∨
        (e.setup.mode = .auto ∧ ∃ v, ev = some v ∧ ∃ i x, e.program[i]? = some x ∧ x.evFrom ≤ v ∧
          (∀ j y, i < j → e.program[j]? = some y → v < y.evFrom) ∧ g = x.settings ∧ point = some (i + 1))) →
      e.solve widest = some {
        solved := ⟨g.time, max g.iris widest, min (g.gain + (widest - g.iris)) 96⟩
        ev := ev, mode := e.setup.mode, point := point, chosenIris := g.iris, chosenGain := g.gain, widestIris := widest
        locked := locked, uncorrected := uncorrected
        deficit := if 96 < g.gain + (widest - g.iris) then some (g.gain + (widest - g.iris) - 96) else none }) ∧
    (e.setup.mode = .auto → (ev = none ∨ ∀ v, ev = some v → ∀ x ∈ e.program, v < x.evFrom) → e.solve widest = none)

/-! ### The Stabilizer (08) -/

/-- R138 to R142: a gyro sample, two signed rates low byte first. It restarts the silence timer outside OFF; ends a fault; moves
the lens four units toward the centre in CENTERING, and enters ACTIVE, which is told to the release, when both axes stand at 0;
is integrated in ACTIVE and PANNING, where fifty fast samples begin a pan and fifty quiet ones end it. A transfer of any other
length does nothing. -/
def Obligations.GyroSampleMovesTheLens : Prop :=
  (∀ b0 b1 : Byte, int16 b0 b1 = (b0.toNat + 256 * b1.toNat : Nat) - (if b1.toNat < 128 then (0 : Int) else 65536)) ∧
  (∀ (transfer : Bytes) (s : State), exec (.gyroTransferDiscarded transfer) s = .next s) ∧
  ∀ (y0 y1 p0 p1 : Byte) (s : State) (t : Stabilizer), t = { s.stab with silenceTimer := true } →
    (t.state = .off → exec (.gyroSample y0 y1 p0 p1) s = .next s) ∧
    (t.state = .held → exec (.gyroSample y0 y1 p0 p1) s = .next { s with stab := t }) ∧
    (t.state = .fault → t.resolved = true → exec (.gyroSample y0 y1 p0 p1) s = .next { s with
      stab := { t with state := .centering, yaw := t.yaw.atCentering, pitch := t.pitch.atCentering } }) ∧
    (t.state = .fault → t.resolved = false → exec (.gyroSample y0 y1 p0 p1) s = .next { s with
      stab := { t with state := .held, yaw := t.yaw.quieted, pitch := t.pitch.quieted } }) ∧
    (∀ y p : Int, t.state = .centering →
      (y.natAbs = t.yaw.position.natAbs - 4 ∧ (0 < y → 0 < t.yaw.position) ∧ (y < 0 → t.yaw.position < 0)) →
      (p.natAbs = t.pitch.position.natAbs - 4 ∧ (0 < p → 0 < t.pitch.position) ∧ (p < 0 → t.pitch.position < 0)) →
      ((y = 0 ∧ p = 0) → exec (.gyroSample y0 y1 p0 p1) s = .next { s with
        stab := { t with state := .active, yaw := { t.yaw with position := 0 }, pitch := { t.pitch with position := 0 } }
        handoffs := { s.handoffs with steady := s.handoffs.steady + 1 } }) ∧
      ((y ≠ 0 ∨ p ≠ 0) → exec (.gyroSample y0 y1 p0 p1) s = .next { s with
        stab := { t with yaw := { t.yaw with position := y }, pitch := { t.pitch with position := p } } })) ∧
    (∀ (y p : ShiftAxis) (pastY pastP : Bool) (u : Stabilizer),
      t.yaw.sampled t.panThreshold t.gain (int16 y0 y1) y pastY →
      t.pitch.sampled t.panThreshold t.gain (int16 p0 p1) p pastP →
      u = { t with yaw := y, pitch := p, limitMark := t.limitMark || (t.exposureOpen && (pastY || pastP)) } →
      (t.state = .active → y.panning = false → p.panning = false →
        exec (.gyroSample y0 y1 p0 p1) s = .next { s with stab := u }) ∧
      (t.state = .active → (y.panning = true ∨ p.panning = true) → exec (.gyroSample y0 y1 p0 p1) s = .next { s with
        stab := { u with state := .panning, leftActive := u.leftActive || u.exposureOpen } }) ∧
      (t.state = .panning → ((y.panning = true ∧ y.quiet ≠ 50) ∨ (p.panning = true ∧ p.quiet ≠ 50)) →
        exec (.gyroSample y0 y1 p0 p1) s = .next { s with stab := u }) ∧
      (t.state = .panning → (y.panning = true → y.quiet = 50) → (p.panning = true → p.quiet = 50) →
        exec (.gyroSample y0 y1 p0 p1) s = .next { s with
          stab := { u with state := .centering, yaw := y.atCentering, pitch := p.atCentering } }))

/-- R143, R144 and R146: the resolver's notices, the silence of the gyro, and STAB_SETUP. ACTIVE left while an exposure is
open leaves its mark. (Notices wait in flight, oldest first, log 1.) -/
def Obligations.StabilizerIsToldSilencedAndSetUp : Prop :=
  ∀ (s : State) (t : Stabilizer) (rest : List StabNotice) (left : Bool), t = s.stab →
    left = (t.leftActive || (t.exposureOpen && decide (t.state = .active))) →
    (∀ g : Nat,
      (s.handoffs.stab = .load g :: rest → exec .stabLoadNotice s = .next { s with
        stab := t.onNotice (.load g), handoffs := { s.handoffs with stab := rest } }) ∧
      (t.state = .held → t.onNotice (.load g) = { t with
        gain := g, resolved := true, state := .centering, yaw := t.yaw.atCentering, pitch := t.pitch.atCentering }) ∧
      (t.state ≠ .held → t.onNotice (.load g) = { t with gain := g, resolved := true })) ∧
    (s.handoffs.stab = .unresolved :: rest → exec .stabUnresolvedNotice s = .next { s with
      stab := t.onNotice .unresolved, handoffs := { s.handoffs with stab := rest } }) ∧
    (t.state ∈ [.centering, .active, .panning] → t.onNotice .unresolved = { t with
      resolved := false, state := .held, yaw := t.yaw.quieted, pitch := t.pitch.quieted, leftActive := left }) ∧
    (t.state ∈ [.off, .held, .fault] → t.onNotice .unresolved = { t with resolved := false }) ∧
    (t.silenceTimer = true → t.state ∈ [.centering, .active, .panning, .held] →
      exec .silenceTimerExpiry s = .next { s with
        stab := { t with
          state := .fault, yaw := t.yaw.quieted, pitch := t.pitch.quieted, leftActive := left, faultUnread := true
          silenceTimer := false } }) ∧
    ∀ (p : Bytes) (on : Bool) (threshold : Nat), stabParams p = some (on, threshold) → s.ready →
      (on = true → t.state = .off → t.resolved = true → exec (.stabSetup p) s = .next (({ s with
        stab := { t with
          panThreshold := threshold, enabled := true, state := .centering, yaw := t.yaw.atCentering
          pitch := t.pitch.atCentering, silenceTimer := true } } : State).answer ⟨.done, []⟩)) ∧
      (on = true → t.state = .off → t.resolved = false → exec (.stabSetup p) s = .next (({ s with
        stab := { t with
          panThreshold := threshold, enabled := true, state := .held, yaw := t.yaw.quieted, pitch := t.pitch.quieted
          silenceTimer := true } } : State).answer ⟨.done, []⟩)) ∧
      ((on = true ↔ t.state ≠ .off) → exec (.stabSetup p) s = .next (({ s with
        stab := { t with panThreshold := threshold } } : State).answer ⟨.done, []⟩)) ∧
      (on = false → t.state ≠ .off → exec (.stabSetup p) s = .next (({ s with
        stab := { t with
          panThreshold := threshold, enabled := false, state := .off, yaw := ⟨0, 0, 0, 0, false⟩
          pitch := ⟨0, 0, 0, 0, false⟩, silenceTimer := false, leftActive := left } } : State).answer ⟨.done, []⟩))

/-! ### The release (09) -/

/-- R152, R174 and R182: the release switch. A change of level starts its line's debounce timer; at its expiry a level that
differs from the taken one is taken, and a change of position that follows is a half-press, a full press, or their letting
go, in order. A half-press taken in standby wakes the part first; then the taken HALF level is closed and the position HALF,
whichever line woke it, and the half-press is handled. A press within the entry to standby finds the parts of the entry that
still wait taken with the waking, before it is handled (R181; which parts wait is the model's choice, log 9). (That outside standby a full press with HALF open leaves the taken HALF
level open is the model's reading, log 29. A settle of 0 that the event starts expires within it, log 11.) -/
def Obligations.SwitchLevelsAreDebounced : Prop :=
  ∀ (s t : State) (closed : Bool) (pressed : State → State),
    (∀ u : State, pressed u = if s.standby then ({ u.wakeUp with
      release := { u.wakeUp.release with halfTaken := true, fullTaken := false } } : State).halfPress else u.halfPress) →
    (closed ≠ s.pins.halfClosed → exec (.switchLineChange .half closed) s = .next { s with
      pins := { s.pins with halfClosed := closed }, release := { s.release with halfDebounce := true } }) ∧
    (closed ≠ s.pins.fullClosed → exec (.switchLineChange .full closed) s = .next { s with
      pins := { s.pins with fullClosed := closed }, release := { s.release with fullDebounce := true } }) ∧
    (s.release.halfDebounce = true → closed = s.pins.halfClosed →
      t = { s with release := { s.release with halfDebounce := false, halfTaken := closed } } →
      (s.release.halfTaken = closed → exec (.switchDebounceExpiry .half) s = .next t) ∧
      (s.release.halfTaken ≠ closed →
        (s.release.fullTaken = true → exec (.switchDebounceExpiry .half) s = .next t.settleZero) ∧
        (s.release.fullTaken = false → closed = true → exec (.switchDebounceExpiry .half) s =
          .next (pressed t).settleZero) ∧
        (s.release.fullTaken = false → closed = false →
          exec (.switchDebounceExpiry .half) s = .next t.halfLetGo.settleZero))) ∧
    (s.release.fullDebounce = true → closed = s.pins.fullClosed →
      t = { s with release := { s.release with fullDebounce := false, fullTaken := closed } } →
      (s.release.fullTaken = closed → exec (.switchDebounceExpiry .full) s = .next t) ∧
      (s.release.fullTaken ≠ closed →
        (closed = true → s.release.halfTaken = true →
          exec (.switchDebounceExpiry .full) s = .next t.fullPress.settleZero) ∧
        (closed = true → s.release.halfTaken = false → exec (.switchDebounceExpiry .full) s =
          .next ({ pressed t with
            release := { (pressed t).release with fullTaken := true } } : State).fullPress.settleZero) ∧
        (closed = false → s.release.halfTaken = true →
          exec (.switchDebounceExpiry .full) s = .next t.fullLetGo.settleZero) ∧
        (closed = false → s.release.halfTaken = false →
          exec (.switchDebounceExpiry .full) s = .next t.fullLetGo.halfLetGo.settleZero)))

/-- R127, R153 to R155, R168 and R169: what a half-press, a full press and their letting go do to the release. (That the
release of a half-press sweep is marked in every running state is the model's reading, log 30; that what is in flight reaches
the record and FOCUS before the half-press sweep takes them, log 33; that IRIS goes on when FULL let go cancels an arm, log
40.) -/
def Obligations.PressesPrepareFireAndLetGo : Prop :=
  ∀ (s : State) (r : Release), r = s.release →
    (∀ base locked swept : State,
      base = { s with
        meter := if s.meter.enabled = true ∧ s.meter.running = false ∧ s.meter.setup.trigger = .half
          then s.meter.begin else s.meter
        release := { r with
          sweepOwed := false, lockAwaited := false, awaitingFocus := false, sweepOutcome := none } } →
      locked = (if r.setup.aeLockOnHalf then base.halfPressLock else base) →
      swept = (if r.setup.afOnHalf then locked.halfPressSweep else locked) →
      s.halfPress = { swept with release := { swept.release with
        state := if swept.release.state = .finishing then .finishing
          else if swept.release.sweepOwed || swept.release.lockAwaited then .preparing else .ready } }) ∧
    (s.halfPressLock = (if s.meter.setup.trigger = .half ∧ s.meter.enabled = true ∨ s.exposure.scene.figures = none then
        { s with exposure := { s.exposure with lock := .pending }, release := { r with lockAwaited := true } }
      else { s with exposure := { s.exposure with lock := match s.exposure.scene.figures with
        | some f => .held f.ev s.exposure.scene.uncorrected
        | none => .pending } })) ∧
    (∀ u : State, u = s.takeHandoffs →
      (s.handoffs.reports = [] → s.handoffs.loads = [] → u = s) ∧
      (∀ code : Result, u.sweepRefusal = some code →
        s.halfPressSweep = { s with release := { r with sweepOutcome := some .afSkipped } }) ∧
      (∀ begun : State, u.sweepRefusal = none → u.beginSweep .half u.sweep.preset = (begun, none) →
        s.halfPressSweep = { begun with
          release := { begun.release with sweepOutcome := some .running, sweepOwed := true } }) ∧
      (∀ (begun : State) (o : SweepOutcome), u.sweepRefusal = none → u.beginSweep .half u.sweep.preset = (begun, some o) →
        s.halfPressSweep = { begun with release := { begun.release with sweepOutcome := some (.ended o) } })) ∧
    (∀ begun : Release, r.state ∈ [.preparing, .ready] →
      begun = { r with
        state := .firing
        burst := { r.burst with running := true, shotsArmed := 0, current := none, endReason := none } } →
      (r.setup.focusPriority = false → s.fullPress = ({ s with release := begun } : State).armBurst) ∧
      (r.setup.focusPriority = true → r.sweepOwed = true →
        s.fullPress = { s with release := { begun with awaitingFocus := true } }) ∧
      (r.setup.focusPriority = true → r.sweepOwed = false → r.sweepOutcome = some (.ended .hit) →
        s.fullPress = ({ s with release := begun } : State).armBurst) ∧
      (r.setup.focusPriority = true → r.sweepOwed = false → r.sweepOutcome ≠ some (.ended .hit) →
        s.fullPress = { s with release := { begun with
          lastRefusal := some .notFocused, state := if r.lockAwaited then .preparing else .ready
          burst := { begun.burst with
            running := false, shotDue := false, endReason := some .notFocused, notice := true } } })) ∧
    (r.state = .finishing → s.fullPress = { s with release := { r with
      lastRefusal := some .busy, burst := { r.burst with notice := true } } }) ∧
    (r.state ≠ .firing → s.fullLetGo = s) ∧
    (∀ ended : Release, r.state = .firing →
      ended = { r with
        awaitingFocus := false, stallTimer := false, state := if r.sweepOwed || r.lockAwaited then .preparing else .ready
        burst := { r.burst with
          running := false, current := none, shotDue := false, endReason := some .released, notice := true } } →
      ((r.awaitingFocus = true ∧ r.stallTimer = false) ∨ (r.awaitingFocus = false ∧ r.stallTimer = true) ∨
          (r.awaitingFocus = false ∧ r.stallTimer = false ∧ r.burst.current = none) →
        s.fullLetGo = { s with release := ended }) ∧
      (∀ i : Fin 12, r.awaitingFocus = false → r.stallTimer = false → r.burst.current = some i →
        ((r.slots[i]).state = .exposing ∨
            ((r.slots[i]).state = .armed ∧ ∃ x, (r.slots[i]).shot = some x ∧ x.burstIndex = 0) →
          s.fullLetGo = { s with release := { ended with state := .finishing, finishingOn := some i } }) ∧
        (∀ x, (r.slots[i]).state = .armed → (r.slots[i]).shot = some x → 0 < x.burstIndex →
          s.fullLetGo = s.cancelArm i none .released))) ∧
    s.halfLetGo = { s with
      exposure := { s.exposure with lock := .none }
      sweep := { s.sweep with record := { s.sweep.record with
        releasePending := s.sweep.record.releasePending || (r.sweepOwed && s.sweep.record.state.runs &&
          decide (s.sweep.record.origin = .half)) } }
      release := { r with
        lockAwaited := false, state := if r.state ∈ [.preparing, .ready] then .opened else r.state } }

/-- R156 to R159: an arm is checked in order, and a refusal leaves everything but the last solution as it was; the solution is
written from the fifth check on. An arm that passes asks for the slot pin, and is refused with NO_LENS if the record has become
unresolved; otherwise it takes the lowest FREE slot, the pin and IRIS, counts the shot, records the picture, reserves its space
and sets the steady state. SHOOT answers with it; in a burst a refusal ends the burst. (That the reports in flight reach the
resolver before the pin is asked for, and that the checks are made on the record they leave unless they unresolve it, is the
model's reading, logs 32 and 33. A settle of 0 that the event starts expires within it, log 11.) -/
def Obligations.ArmIsCheckedAndMade : Prop :=
  (∀ (s t base : State) (origin : ShotOrigin) (index : Nat), t = s.takeReports →
    base = (if t.resolver.record.resolved then t else s) → (s.handoffs.reports = [] → t = s) ∧
    (s.meter.reference = true → s.arm origin index = (s, .refused .wrongState)) ∧
    (s.meter.reference = false →
      (base.resolver.record.resolved = false → s.arm origin index = (s, .refused .noLens)) ∧
      (base.resolver.record.resolved = true →
        (base.zoom.state ∈ [.waking, .moving, .waitMap] → s.arm origin index = (s, .refused .busy)) ∧
        (base.zoom.state ∉ [.waking, .moving, .waitMap] →
          (base.iris.state ∈ [.unhomed, .homing, .fault] → s.arm origin index = (s, .refused .notHomed)) ∧
          (base.iris.state ∈ [.idle, .waking, .moving, .waitMap, .settling] →
            (s.exposure.solve base.resolver.record.facts.widestIris = none →
              s.arm origin index = (s, .refused .noExposure)) ∧
            ∀ (x : Solution) (e : ExposureUnit) (reservation : Nat),
              s.exposure.solve base.resolver.record.facts.widestIris = some x →
              e = { s.exposure with solution := some x } →
              (∀ row : Fin 4, row.val * 24 ≤ x.solved.gain → (x.solved.gain < row.val * 24 + 24 ∨ row = 3) →
                reservation = s.release.sizeTable[row]) →
              ((∃ i : Fin 12, (s.release.slots[i]).state ∈ [.armed, .exposing]) →
                s.arm origin index = ({ s with exposure := e }, .refused .busy)) ∧
              ((∀ i : Fin 12, (s.release.slots[i]).state ∉ [.armed, .exposing]) →
                ((∀ i : Fin 12, (s.release.slots[i]).state ≠ .free) →
                  s.arm origin index = ({ s with exposure := e }, .refused .noSlot)) ∧
                ∀ i : Fin 12, (s.release.slots[i]).state = .free →
                  (∀ j : Fin 12, j < i → (s.release.slots[j]).state ≠ .free) →
                  (s.release.storeFree < s.release.heldSum + reservation →
                    s.arm origin index = ({ s with exposure := e }, .refused .noCapacity)) ∧
                  (s.release.heldSum + reservation ≤ s.release.storeFree →
                    (t.resolver.record.resolved = false →
                      s.arm origin index = ({ t with exposure := e }, .refused .noLens)) ∧
                    ∀ (pair : Pair) (zoom number : Nat) (steady : Steady), t.resolver.record.resolved = true →
                      t.resolver.record.pair = some pair → t.zoom.position = some zoom →
                      number = (s.release.shotCounter + 1) % 4294967296 →
                      steady = (if s.release.setup.steadyWait = false ∨ s.stab.enabled = false ∨ s.stab.state = .active
                        then .met else .waiting) →
                      s.arm origin index = (({ t with
                        exposure := e
                        resolver := { t.resolver with slotPin := true }
                        iris := { t.iris with ownership := .exposure }
                        release := { s.release with
                          slots := s.release.slots.set i ⟨.armed, some ⟨origin, number, index, x.solved, x.ev, x.deficit,
                            pair.context, pair.band, zoom⟩, none, none, some reservation, none, false⟩
                          shotCounter := number, control := ⟨some i, false, steady⟩
                          steadyTimer := decide (steady = .waiting) } } : State).internalMove .iris x.solved.iris
                            .exposure, .armed i number)))))))) ∧
  ∀ (s u : State),
    (∀ (code : Result), s.arm .shoot 0 = (u, .refused code) → s.ready →
      exec (.shoot []) s = .next (u.settleZero.answer ⟨code, []⟩)) ∧
    (∀ (i : Fin 12) (number : Nat), s.arm .shoot 0 = (u, .armed i number) → s.ready →
      exec (.shoot []) s = .next (u.settleZero.answer ⟨.done, BitVec.ofNat 8 i.val :: u32 number⟩)) ∧
    (∀ (i : Fin 12) (number : Nat), s.arm .switch s.release.burst.shotsArmed = (u, .armed i number) →
      s.armBurst = { u with release := { u.release with
        burst := { u.release.burst with shotsArmed := u.release.burst.shotsArmed + 1, current := some i } } }) ∧
    (∀ (code : Result), s.arm .switch s.release.burst.shotsArmed = (u, .refused code) →
      u.release.state = .firing → s.armBurst = { u with release := { u.release with
        lastRefusal := some code
        state := if u.release.sweepOwed || u.release.lockAwaited then .preparing else .ready
        burst := { u.release.burst with
          running := false, current := none, shotDue := false, notice := true
          endReason := some (match code with
            | .noCapacity => .storeFull | .notFocused => .notFocused | .wrongState => .wrongState | .noLens => .noLens
            | .notHomed => .notHomed | .noExposure => .noExposure | .noSlot => .noSlot | _ => .busy) } } })

/-- R145 and R159 to R161: the exposure of an armed slot starts when the iris has settled at the solved step and the steady
wait is over, whichever comes second; its start opens the shutter and marks an image that is not fully steadied. At its
timer's expiry the shutter closes, the slot becomes EXPOSED with its marks, IRIS and the pin are given back, and what follows
falls due. (That the resolver's notices in flight reach the Stabilizer before the exposure's start is the model's reading, log
33. A settle of 0 that the event starts expires within it, log 11.) -/
def Obligations.ExposureStartsAndEnds : Prop :=
  ∀ (s : State) (i : Fin 12) (slot : Slot) (x : Shot), s.release.control.armed = some i → slot = s.release.slots[i] →
    slot.shot = some x →
    ∀ (starts : Steady → Bool → State) (told : Stabilizer), told = s.handoffs.stab.foldl Stabilizer.onNotice s.stab →
      (∀ steady settled, starts steady settled = { s with
        stab := { told with
          limitMark := false, exposureOpen := true
          leftActive := decide (told.state ∈ [.centering, .panning, .held, .fault]) }
        handoffs := { s.handoffs with stab := [] }
        release := { s.release with
          slots := s.release.slots.set i { slot with state := .exposing, focus := s.focus.position }
          control := { s.release.control with steady := steady, irisSettled := settled }
          steadyTimer := false, shutter := true, expose := true, exposureTimer := some x.settings.time } }) →
      (slot.state = .armed →
        (s.iris.position = some x.settings.iris → s.release.control.steady ≠ .waiting → s.release.steadyTimer = false →
          s.irisSettled = starts s.release.control.steady true) ∧
        (s.iris.position = some x.settings.iris → s.release.control.steady = .waiting → s.irisSettled = { s with
          release := { s.release with control := { s.release.control with irisSettled := true } } }) ∧
        (s.iris.position ≠ some x.settings.iris → s.irisSettled = s) ∧
        (s.release.steadyTimer = true → s.release.control.irisSettled = true →
          exec .steadyWaitExpiry s = .next (starts .expired true)) ∧
        (s.release.steadyTimer = true → s.release.control.irisSettled = false → exec .steadyWaitExpiry s = .next { s with
          release := { s.release with
            control := { s.release.control with steady := .expired }, steadyTimer := false } }) ∧
        (∀ n : Nat, s.handoffs.steady = n + 1 →
          (s.release.control.steady = .waiting → s.release.control.irisSettled = true → exec .steadyNotice s = .next
            { starts .met true with handoffs := { s.handoffs with steady := n, stab := [] } }) ∧
          (s.release.control.steady = .waiting → s.release.control.irisSettled = false → exec .steadyNotice s = .next
            { s with
              handoffs := { s.handoffs with steady := n }
              release := { s.release with
                control := { s.release.control with steady := .met }, steadyTimer := false } }) ∧
          (s.release.control.steady ≠ .waiting →
            exec .steadyNotice s = .next { s with handoffs := { s.handoffs with steady := n } }))) ∧
      (s.release.exposureTimer ≠ none → slot.state = .exposing →
        ∀ (t : State) (r : Release),
          t = ({ s with
            iris := { s.iris with ownership := .none }, stab := { s.stab with exposureOpen := false } } : State).releasePin
              .slot →
          r = { s.release with
            shutter := false, expose := false, exposureTimer := none, control := ExposureControl.cleared
            steadyTimer := false
            slots := s.release.slots.set i { slot with
              state := .exposed, notice := true
              marks := some ⟨s.stab.limitMark || s.stab.leftActive, decide (s.release.control.steady = .expired)⟩ } } →
          exec .exposureTimerExpiry s = .next ({ t with release := (r.nextShot i).finish i } : State).settleZero)

/-- R162 to R168 and R170: the picture slots and the store. DEVELOPED takes the size that fits, STORED frees the slot and the
space, DISCARD gives up a slot in any state but FREE, and a slot freed while a burst stalls is armed at once. The next shot
of a burst falls due, stalls, or ends the burst at its limit. The setup, the size table and the capacity are replaced whole,
the capacity never below what is held. (A settle of 0 that the event starts expires within it, which is the model's reading,
log 11.) -/
def Obligations.SlotsAreRetiredAndFreed : Prop :=
  (∀ (s : State), s.ready →
    (∀ (p : Bytes) (i : Fin 12) (size : Nat) (t : Slot) (held : Nat), developedParams p = some (i, size) →
      t = s.release.slots[i] →
      (t.state ≠ .exposed → exec (.slotDeveloped p) s = .next (s.answer ⟨.wrongState, []⟩)) ∧
      (t.state = .exposed → t.reservation = some held →
        ((size ≤ held ∨ s.release.heldSum - held + size ≤ s.release.storeFree) →
          exec (.slotDeveloped p) s = .next (({ s with release := { s.release with
            slots := s.release.slots.set i { t with
              state := .developed, reservation := none, size := some size } } } : State).answer ⟨.done, []⟩)) ∧
        (held < size → s.release.storeFree < s.release.heldSum - held + size →
          exec (.slotDeveloped p) s = .next (s.answer ⟨.noCapacity, []⟩)))) ∧
    (∀ (i : Fin 12) (t : Slot) (r : Release), t = s.release.slots[i] →
      r = { s.release with slots := s.release.slots.set i Slot.cleared } →
      (t.state ≠ .developed → exec (.slotStored [BitVec.ofNat 8 i.val]) s = .next (s.answer ⟨.wrongState, []⟩)) ∧
      (∀ size : Nat, t.state = .developed → t.size = some size →
        exec (.slotStored [BitVec.ofNat 8 i.val]) s = .next ((({ s with
          release := { r with storeFree := s.release.storeFree - size } } : State).slotFreed.settleZero).answer
            ⟨.done, []⟩)) ∧
      (t.state = .free → exec (.slotDiscard [BitVec.ofNat 8 i.val]) s = .next (s.answer ⟨.wrongState, []⟩)) ∧
      (t.state ∈ [.exposed, .developed] → exec (.slotDiscard [BitVec.ofNat 8 i.val]) s =
        .next ((({ s with release := r } : State).slotFreed.settleZero).answer ⟨.done, []⟩)) ∧
      (t.state ∈ [.armed, .exposing] → ∀ (u : State),
        u = ({ s with
          iris := { s.iris with ownership := .none }
          stab := if t.state = .exposing then { s.stab with exposureOpen := false } else s.stab } : State).releasePin .slot →
        exec (.slotDiscard [BitVec.ofNat 8 i.val]) s = .next ((({ u with
          release := ((if t.state = .exposing then
              { r with
                control := ExposureControl.cleared, steadyTimer := false, shutter := false, expose := false
                exposureTimer := none }
            else { r with control := ExposureControl.cleared, steadyTimer := false } : Release).nextShot i).finish i } :
              State).settleZero).answer ⟨.done, []⟩))) ∧
    (∀ (p : Bytes) (blocks : Nat), capacityParam p = some blocks →
      (blocks < s.release.heldSum → exec (.storeCapacity p) s = .next (s.answer ⟨.noCapacity, []⟩)) ∧
      (s.release.heldSum ≤ blocks → exec (.storeCapacity p) s =
        .next (({ s with release := { s.release with storeFree := blocks } } : State).answer ⟨.done, []⟩))) ∧
    (∀ (p : Bytes) (u : ReleaseSetup), releaseParams p = some u → exec (.releaseSetup p) s =
      .next (({ s with release := { s.release with setup := u } } : State).answer ⟨.done, []⟩)) ∧
    (∀ (p : Bytes) (rows : Vector Nat 4), sizeParams p = some rows → exec (.sizeTableWrite p) s =
      .next (({ s with release := { s.release with sizeTable := rows } } : State).answer ⟨.done, []⟩))) ∧
  (∀ (s : State), (s.release.stallTimer = false → s.slotFreed = s) ∧
    (s.release.stallTimer = true →
      s.slotFreed = ({ s with release := { s.release with stallTimer := false } } : State).armBurst ∧
      (s.release.state = .firing → exec .stallTimerExpiry s = .next { s with release := { s.release with
        stallTimer := false
        state := if s.release.sweepOwed || s.release.lockAwaited then .preparing else .ready
        burst := { s.release.burst with
          running := false, current := none, shotDue := false, endReason := some .stalled, notice := true } } }))) ∧
  ∀ (r : Release) (i : Fin 12) (limit : Nat), limit = (match r.setup.mode with
      | .single => 1
      | .burst => r.setup.burstLimit) →
    ((r.burst.running = false ∨ r.burst.current ≠ some i) → r.nextShot i = r) ∧
    (r.burst.running = true → r.burst.current = some i →
      (limit ≤ r.burst.shotsArmed → r.nextShot i = { r with
        state := if r.state = .firing then (if r.sweepOwed || r.lockAwaited then .preparing else .ready) else r.state
        burst := { r.burst with
          running := false, current := none, shotDue := false, endReason := some .limit, notice := true } }) ∧
      (r.burst.shotsArmed < limit → (∃ j : Fin 12, (r.slots[j]).state = .free) →
        r.nextShot i = { r with burst := { r.burst with current := none, shotDue := true } }) ∧
      (r.burst.shotsArmed < limit → (∀ j : Fin 12, (r.slots[j]).state ≠ .free) →
        r.nextShot i = { r with burst := { r.burst with current := none }, stallTimer := true })) ∧
    ((r.state ≠ .finishing ∨ r.finishingOn ≠ some i) → r.finish i = r) ∧
    (r.state = .finishing → r.finishingOn = some i →
      (r.halfTaken = false → r.fullTaken = false → r.finish i = { r with finishingOn := none, state := .opened }) ∧
      (r.halfTaken = true → r.fullTaken = false → r.finish i = { r with
        finishingOn := none, state := if r.sweepOwed || r.lockAwaited then .preparing else .ready }))

/-- R158, R151 and R164: every step keeps the release's laws: at most one slot is ARMED or EXPOSING, the exposure control's slot
is one of those, and the reservations and sizes held never exceed the store free count. -/
def Obligations.StepKeepsTheReleaseLaw : Prop :=
  ∀ s t : State, s.release.Law → step s = .next t → t.release.Law

/-! ### The whole part (10) -/

/-- R42, R69, R81, R86, R103, R121, R136, R149, R173 and R180: CLEAR, in whichever order its parts are taken, which is a free
choice (log 7): what every block is left with, and what is kept. The resolver drops the pins and resolves the record with
source WAKE, or leaves it unresolved with a miss or with ZOOM not homed; each axis rests, or stops at its next decision point,
with its completion collected and its ownership given up, at the position and with the coils that it had; FOCUS, once at rest,
takes what tracking owes it; the Stabilizer goes to CENTERING or HELD, or stays OFF. (That the axes
are taken in the order ZOOM, FOCUS, IRIS is the model's choice, log 41. The resolver's CLEAR part resolves in the same event and
hands the drain over, log 8. That a release of the coils which standby entry left pending stands is the model's choice, log 38. A settle of 0 that the event starts expires within it, log 11.) -/
def Obligations.ClearBringsEveryBlockToRest : Prop :=
  (∀ s : State, s.ready → ∃ resolverFirst loadsFirst noticesFirst : Bool, exec (.clear []) s =
    .next ((({ s with freeCount := s.freeCount + 3 } : State).clearParts resolverFirst loadsFirst
      noticesFirst).settleZero.answer ⟨.done, []⟩)) ∧
  (∀ (s t first second third fourth : State) (resolverFirst loadsFirst noticesFirst : Bool),
    t = s.clearParts resolverFirst loadsFirst noticesFirst → first = (if resolverFirst then s.clearResolver else s) →
    second = (if loadsFirst then first.deliverLoads else first) →
    third = ((second.clearAxis .zoom).clearAxis .focus).clearAxis .iris →
    fourth = (if resolverFirst then third else third.clearResolver) →
    t.resolver = fourth.resolver ∧ (∀ a : AxisId, t.axis a = third.axis a) ∧ t.travel = third.travel ∧
    t.handoffs.loads = fourth.handoffs.loads ∧ t.handoffs.reports = s.handoffs.reports ∧
    t.map = s.map ∧ t.handoffs.drains = s.handoffs.drains + 1 ∧
    t.resolver.slotPin = false ∧ t.resolver.sweepPin = false ∧ t.resolver.deferred = false ∧
    t.resolver.pendingCode = none ∧ t.resolver.accessory = s.resolver.pendingCode.getD s.resolver.accessory ∧
    t.resolver.mode = s.resolver.mode ∧
    (∀ a : AxisId, (t.axis a).completion.pending = false ∧ (t.axis a).ownership = .none ∧
      (t.axis a).profile = (s.axis a).profile) ∧
    (∀ a : AxisId, a ≠ .focus →
      ((s.axis a).state ∈ [.unhomed, .idle, .fault] → (t.axis a).state = (s.axis a).state) ∧
      ((s.axis a).state ∈ [.waking, .settling] → (t.axis a).state = .idle ∧ (t.axis a).mover = none ∧
        (t.axis a).target = (s.axis a).position) ∧
      ((s.axis a).state = .moving → (t.axis a).state = .moving ∧ (t.axis a).stopPending = .clear) ∧
      ((s.axis a).state = .homing → (s.axis a).wakeTimer ≠ none → (t.axis a).state = .unhomed) ∧
      ((s.axis a).state = .homing → (s.axis a).wakeTimer = none →
        (t.axis a).state = .homing ∧ (t.axis a).stopPending = .clear)) ∧
    (s.zoom.state = .waitMap → t.zoom.state = .idle ∧ t.zoom.target = s.zoom.position ∧ t.travel.refillTimer = false ∧
      t.travel.bandWaited = none ∧ t.travel.crossing = none) ∧
    t.sweep.preset = s.sweep.preset ∧ t.sweep.record.awaiting = (s.sweep.record.awaiting && !s.sweep.record.state.runs) ∧
    (s.sweep.record.state.runs = true → t.sweep.record.state = .ended ∧ t.sweep.record.outcome = none ∧
      t.sweep.record.releasePending = false ∧ t.sweep.deadline = false) ∧
    (s.sweep.record.state.runs = false → t.sweep = s.sweep) ∧
    t.meter = (if s.meter.running then
      { s.meter with running := false, zone := none, phase := none, referenceTime := none } else s.meter) ∧
    t.exposure = { s.exposure with lock := .none, staging := none } ∧
    (∀ u : Stabilizer, u = (if noticesFirst then fourth.handoffs.stab.foldl Stabilizer.onNotice s.stab else s.stab) →
      t.handoffs.stab = (if noticesFirst then [] else fourth.handoffs.stab) ∧
      (u.enabled = false → t.stab = { u with exposureOpen := false }) ∧
      (u.enabled = true → u.resolved = true → t.stab = { u with
        exposureOpen := false, state := .centering, yaw := u.yaw.atCentering, pitch := u.pitch.atCentering
        silenceTimer := true }) ∧
      (u.enabled = true → u.resolved = false → t.stab = { u with
        exposureOpen := false, state := .held, yaw := u.yaw.quieted, pitch := u.pitch.quieted, silenceTimer := true })) ∧
    t.stab.enabled = s.stab.enabled ∧ t.stab.panThreshold = s.stab.panThreshold ∧
    t.release = { s.release with
      state := .opened, halfTaken := false, fullTaken := false
      halfDebounce := s.release.halfDebounce || s.pins.halfClosed
      fullDebounce := s.release.fullDebounce || s.pins.fullClosed
      sweepOutcome := none, sweepOwed := false, lockAwaited := false, awaitingFocus := false, finishingOn := none
      stallTimer := false, steadyTimer := false, exposureTimer := none, shutter := false, expose := false
      control := ExposureControl.cleared, slots := Vector.replicate 12 Slot.cleared
      burst := if s.release.burst.running then { s.release.burst with
        running := false, current := none, shotDue := false, endReason := some .cleared } else s.release.burst } ∧
    t.holdOff = s.holdOff ∧ t.standby = s.standby ∧ t.link = s.link) ∧
  (∀ (s : State) (r : Resolver),
    r = { s.resolver with
      slotPin := false, sweepPin := false, deferred := false, pendingCode := none
      accessory := s.resolver.pendingCode.getD s.resolver.accessory } →
    (∀ (position : Nat) (pair : Pair), s.zoom.position = some position →
      s.zoom.state ∈ [.idle, .waking, .moving, .waitMap, .settling] → pair = ⟨4 * r.mode + r.accessory, position / 25⟩ →
      (∀ i : Fin 32, s.map.lookup pair = some i → s.clearResolver = { s with
        resolver := { r with
          record := ⟨true, (s.map.entries[i]).facts, some i, some pair⟩, miss := none, missUnread := false }
        handoffs := { s.handoffs with
          drains := s.handoffs.drains + 1
          loads := s.handoffs.loads ++ [⟨(s.map.entries[i]).facts, r.record.facts.offset⟩]
          stab := s.handoffs.stab ++ [.load (s.map.entries[i]).gain] } }) ∧
      (s.map.lookup pair = none → s.clearResolver = { s with
        resolver := { r with
          record := { r.record with resolved := false }
          miss := some ⟨pair.context, pair.band, .wake⟩, missUnread := true }
        handoffs := { s.handoffs with
          drains := s.handoffs.drains + 1
          stab := s.handoffs.stab ++ (if r.record.resolved then [.unresolved] else []) } })) ∧
    (s.zoom.state ∈ [.unhomed, .homing, .fault] → s.clearResolver = { s with
      resolver := { r with record := { r.record with resolved := false } }
      handoffs := { s.handoffs with
        drains := s.handoffs.drains + 1
        stab := s.handoffs.stab ++ (if r.record.resolved then [.unresolved] else []) } })) ∧
  ∀ (s u v : State) (a : AxisId) (r rest : AxisRecord) (freed : State → State), r = s.axis a →
    (∀ x : State, freed x = x.setAxis a { x.axis a with
      completion := { (x.axis a).completion with pending := false }, ownership := .none }) →
    rest = { r with
      state := .idle, target := r.position, mover := none, joined := none, stopPending := .none, ending := .reached
      stepTimer := none, wakeTimer := none, settleTimer := none, releaseAtRest := false
      hold := if r.releaseAtRest then .released else r.hold
      holdTimer := if r.releaseAtRest then none else r.holdAtRest } →
    u = (if a = .focus then (s.setAxis a rest).applyOwed else s.setAxis a rest) →
    v = (if a = .zoom then u.resolve .zoomStep else if a = .focus then u.focusHomed else u) →
    (r.state ∈ [.unhomed, .idle, .fault] → s.clearAxis a = freed s) ∧
    (r.state = .waking → s.clearAxis a = freed u) ∧
    (r.state = .moving → s.clearAxis a = freed (s.setAxis a { r with stopPending := .clear })) ∧
    (r.state = .settling → r.ending ≠ .homed → s.clearAxis a = freed u) ∧
    (r.state = .settling → r.ending = .homed → s.clearAxis a = freed v) ∧
    (r.state = .homing → r.wakeTimer = none → s.clearAxis a = freed (s.setAxis a { r with stopPending := .clear })) ∧
    (r.state = .homing → r.wakeTimer ≠ none → s.clearAxis a = freed (s.setAxis a { r with
      state := .unhomed, position := none, target := none, mover := none, joined := none, stopPending := .none
      releaseAtRest := false, ending := .reached, stepTimer := none, wakeTimer := none, settleTimer := none
      holdTimer := r.holdAtRest })) ∧
    (a = .zoom → r.state = .waitMap → s.clearAxis a = freed ({ s with
      zoom := rest
      travel := { s.travel with refillTimer := false, bandWaited := none, crossing := none } } : State))

/-- R24, R43, R70, R121, R136, R150, R174, R181 and R182: STANDBY is answered BUSY unless everything rests. Otherwise the
standby state is set and the parts of the entry are handed out: the scope's entries are retired, the record is unresolved, the
Stabilizer stops, and passes handed over before are taken. The parts of the axes, of metering and of the release are taken
before the answer is placed, or before a waking by the switch: what a load has begun is brought to rest and every coil released,
a metering sweep that a frame start has begun is ended, and a pressed switch is taken as let go, which sets the AE lock to NONE.
WAKE leaves standby and resolves the record; outside standby it is answered WRONG_STATE. (Which
parts are taken in the event of the request and which wait is the model's choice, log 9.) -/
def Obligations.StandbyIsEnteredAndLeft : Prop :=
  (∀ (s : State) (p : Bytes) (c : StandbyScope) (rests : Prop), scopeParam p = some c → s.ready →
    (rests ↔ (∀ a : AxisId, (s.axis a).state ∈ [.unhomed, .idle, .fault]) ∧
      s.sweep.record.state ∈ [.none, .ended] ∧ s.meter.running = false ∧
      (∀ i : Fin 12, (s.release.slots[i]).state = .free) ∧ s.map.queue = []) →
    (¬rests → exec (.standby p) s = .next (s.answer ⟨.busy, []⟩)) ∧
    (rests → ∃ t : State, exec (.standby p) s = .next (t.answer ⟨.done, []⟩) ∧ t.standby = true ∧ t.entering = true ∧
      (∀ a : AxisId, t.axis a = s.axis a) ∧ t.meter = s.meter ∧ t.sweep = s.sweep ∧ t.travel = s.travel ∧
      t.map = { s.map with entries := t.map.entries } ∧
      (∀ i : Fin 32, t.map.entries[i] = { s.map.entries[i] with
        valid := match c with
          | .all => (s.map.entries[i]).valid
          | .locked => (s.map.entries[i]).valid && decide (i.val < s.map.lockCount)
          | .none => false }) ∧
      t.resolver = { s.resolver with record := { s.resolver.record with resolved := false } } ∧
      t.handoffs = { s.handoffs with scenes := [], stab := [] } ∧
      t.stab.state = .off ∧ t.stab.resolved = false ∧ t.stab.silenceTimer = false ∧ t.stab.enabled = s.stab.enabled ∧
      t.stab.yaw = ⟨0, 0, 0, 0, false⟩ ∧ t.stab.pitch = ⟨0, 0, 0, 0, false⟩ ∧
      t.release = s.takeScenes.release ∧ t.exposure = s.takeScenes.exposure ∧
      (s.handoffs.scenes = [] → t.release = s.release ∧ t.exposure = s.exposure))) ∧
  (∀ (s : State), s.takeScenes = s.handoffs.scenes.foldl State.takePass
    { s with handoffs := { s.handoffs with scenes := [] } }) ∧
  (∀ (s u : State) (m : MeterUnit), u = ((s.deliverLoads.standbyAxis .zoom).standbyAxis .focus).standbyAxis .iris →
    m = (if s.meter.running then
        { s.meter with enabled := false, running := false, zone := none, phase := none, referenceTime := none }
      else { s.meter with enabled := false }) →
    (s.entering = false → s.finishEntry = s) ∧
    (s.entering = true →
      s.finishEntry = (({ u with meter := m, entering := false } : State).takeScenes).standbyRelease)) ∧
  (∀ s u : State,
    ((s.release.position = .none ∧ u = s) ∨ (s.release.position = .half ∧ u = s.halfLetGo) ∨
      (s.release.position = .full ∧ u = s.fullLetGo.halfLetGo)) →
    s.standbyRelease = { u with
      release := { u.release with halfTaken := false, fullTaken := false, state := .opened } } ∧
    u.exposure = (if s.release.position = .none then s.exposure else { s.exposure with lock := .none })) ∧
  (∀ (s : State) (a : AxisId) (r : AxisRecord), r = s.axis a →
    (r.state ∈ [.unhomed, .idle, .fault] → s.standbyAxis a = s.setAxis a { r with hold := .released, holdTimer := none }) ∧
    (r.state = .moving → s.standbyAxis a = s.setAxis a { r with
      stopPending := .clear, releaseAtRest := true, holdTimer := none }) ∧
    (r.state ∈ [.waking, .settling] → s.standbyAxis a = s.setAxis a { r with
      state := .idle, target := r.position, mover := none, joined := none, stopPending := .none, ending := .reached
      stepTimer := none, wakeTimer := none, settleTimer := none, hold := .released, holdTimer := none })) ∧
  ∀ s e : State, s.link = .free → e = s.finishEntry →
    (s.standby = false → exec (.wake []) s = .next (s.answer ⟨.wrongState, []⟩)) ∧
    (s.standby = true → ∃ t : State, exec (.wake []) s = .next (t.answer ⟨.done, []⟩) ∧
      t.standby = false ∧ t.resolver = (({ e with standby := false } : State).resolve .wake).resolver ∧
      t.map = s.map ∧ t.focus = e.focus ∧ t.iris = e.iris ∧ t.meter = e.meter ∧ t.release = e.release ∧
      t.exposure = e.exposure ∧ (e.zoom.state ≠ .waitMap → t.zoom = e.zoom) ∧
      (s.stab.enabled = true → t.stab.silenceTimer = true ∧
        t.stab.state = (if t.stab.resolved then .centering else .held)) ∧
      (s.stab.enabled = false → s.handoffs.stab = [] → s.stab.state = .off → t.stab.state = .off))

end
end

