-- ==== Sys2Proof/Laws/State.lean ====
section
/-! SUPPORT. What each update of one record of the state leaves in each field: no later proof unfolds a record update. -/

namespace Sys2Proof.Machine

variable (s : State)

section setEntering
variable (x : Bool)
@[simp] theorem State.setEntering_map : (s.setEntering x).map = s.map := rfl
@[simp] theorem State.setEntering_resolver : (s.setEntering x).resolver = s.resolver := rfl
@[simp] theorem State.setEntering_zoom : (s.setEntering x).zoom = s.zoom := rfl
@[simp] theorem State.setEntering_focus : (s.setEntering x).focus = s.focus := rfl
@[simp] theorem State.setEntering_iris : (s.setEntering x).iris = s.iris := rfl
@[simp] theorem State.setEntering_travel : (s.setEntering x).travel = s.travel := rfl
@[simp] theorem State.setEntering_holdOff : (s.setEntering x).holdOff = s.holdOff := rfl
@[simp] theorem State.setEntering_sweep : (s.setEntering x).sweep = s.sweep := rfl
@[simp] theorem State.setEntering_meter : (s.setEntering x).meter = s.meter := rfl
@[simp] theorem State.setEntering_exposure : (s.setEntering x).exposure = s.exposure := rfl
@[simp] theorem State.setEntering_stab : (s.setEntering x).stab = s.stab := rfl
@[simp] theorem State.setEntering_release : (s.setEntering x).release = s.release := rfl
@[simp] theorem State.setEntering_link : (s.setEntering x).link = s.link := rfl
@[simp] theorem State.setEntering_standby : (s.setEntering x).standby = s.standby := rfl
@[simp] theorem State.setEntering_entering : (s.setEntering x).entering = x := rfl
@[simp] theorem State.setEntering_sent : (s.setEntering x).sent = s.sent := rfl
@[simp] theorem State.setEntering_pins : (s.setEntering x).pins = s.pins := rfl
@[simp] theorem State.setEntering_handoffs : (s.setEntering x).handoffs = s.handoffs := rfl
@[simp] theorem State.setEntering_freeCount : (s.setEntering x).freeCount = s.freeCount := rfl
@[simp] theorem State.setEntering_pending : (s.setEntering x).pending = s.pending := rfl
@[simp] theorem State.setEntering_axis (a : AxisId) : (s.setEntering x).axis a = s.axis a := by cases a <;> rfl
end setEntering

section setMap
variable (x : LensMap)
@[simp] theorem State.setMap_map : (s.setMap x).map = x := rfl
@[simp] theorem State.setMap_resolver : (s.setMap x).resolver = s.resolver := rfl
@[simp] theorem State.setMap_zoom : (s.setMap x).zoom = s.zoom := rfl
@[simp] theorem State.setMap_focus : (s.setMap x).focus = s.focus := rfl
@[simp] theorem State.setMap_iris : (s.setMap x).iris = s.iris := rfl
@[simp] theorem State.setMap_travel : (s.setMap x).travel = s.travel := rfl
@[simp] theorem State.setMap_holdOff : (s.setMap x).holdOff = s.holdOff := rfl
@[simp] theorem State.setMap_sweep : (s.setMap x).sweep = s.sweep := rfl
@[simp] theorem State.setMap_meter : (s.setMap x).meter = s.meter := rfl
@[simp] theorem State.setMap_exposure : (s.setMap x).exposure = s.exposure := rfl
@[simp] theorem State.setMap_stab : (s.setMap x).stab = s.stab := rfl
@[simp] theorem State.setMap_release : (s.setMap x).release = s.release := rfl
@[simp] theorem State.setMap_link : (s.setMap x).link = s.link := rfl
@[simp] theorem State.setMap_standby : (s.setMap x).standby = s.standby := rfl
@[simp] theorem State.setMap_entering : (s.setMap x).entering = s.entering := rfl
@[simp] theorem State.setMap_sent : (s.setMap x).sent = s.sent := rfl
@[simp] theorem State.setMap_pins : (s.setMap x).pins = s.pins := rfl
@[simp] theorem State.setMap_handoffs : (s.setMap x).handoffs = s.handoffs := rfl
@[simp] theorem State.setMap_freeCount : (s.setMap x).freeCount = s.freeCount := rfl
@[simp] theorem State.setMap_pending : (s.setMap x).pending = s.pending := rfl
@[simp] theorem State.setMap_axis (a : AxisId) : (s.setMap x).axis a = s.axis a := by cases a <;> rfl
end setMap

section setResolver
variable (x : Resolver)
@[simp] theorem State.setResolver_map : (s.setResolver x).map = s.map := rfl
@[simp] theorem State.setResolver_resolver : (s.setResolver x).resolver = x := rfl
@[simp] theorem State.setResolver_zoom : (s.setResolver x).zoom = s.zoom := rfl
@[simp] theorem State.setResolver_focus : (s.setResolver x).focus = s.focus := rfl
@[simp] theorem State.setResolver_iris : (s.setResolver x).iris = s.iris := rfl
@[simp] theorem State.setResolver_travel : (s.setResolver x).travel = s.travel := rfl
@[simp] theorem State.setResolver_holdOff : (s.setResolver x).holdOff = s.holdOff := rfl
@[simp] theorem State.setResolver_sweep : (s.setResolver x).sweep = s.sweep := rfl
@[simp] theorem State.setResolver_meter : (s.setResolver x).meter = s.meter := rfl
@[simp] theorem State.setResolver_exposure : (s.setResolver x).exposure = s.exposure := rfl
@[simp] theorem State.setResolver_stab : (s.setResolver x).stab = s.stab := rfl
@[simp] theorem State.setResolver_release : (s.setResolver x).release = s.release := rfl
@[simp] theorem State.setResolver_link : (s.setResolver x).link = s.link := rfl
@[simp] theorem State.setResolver_standby : (s.setResolver x).standby = s.standby := rfl
@[simp] theorem State.setResolver_entering : (s.setResolver x).entering = s.entering := rfl
@[simp] theorem State.setResolver_sent : (s.setResolver x).sent = s.sent := rfl
@[simp] theorem State.setResolver_pins : (s.setResolver x).pins = s.pins := rfl
@[simp] theorem State.setResolver_handoffs : (s.setResolver x).handoffs = s.handoffs := rfl
@[simp] theorem State.setResolver_freeCount : (s.setResolver x).freeCount = s.freeCount := rfl
@[simp] theorem State.setResolver_pending : (s.setResolver x).pending = s.pending := rfl
@[simp] theorem State.setResolver_axis (a : AxisId) : (s.setResolver x).axis a = s.axis a := by cases a <;> rfl
end setResolver

section setTravel
variable (x : ZoomTravel)
@[simp] theorem State.setTravel_map : (s.setTravel x).map = s.map := rfl
@[simp] theorem State.setTravel_resolver : (s.setTravel x).resolver = s.resolver := rfl
@[simp] theorem State.setTravel_zoom : (s.setTravel x).zoom = s.zoom := rfl
@[simp] theorem State.setTravel_focus : (s.setTravel x).focus = s.focus := rfl
@[simp] theorem State.setTravel_iris : (s.setTravel x).iris = s.iris := rfl
@[simp] theorem State.setTravel_travel : (s.setTravel x).travel = x := rfl
@[simp] theorem State.setTravel_holdOff : (s.setTravel x).holdOff = s.holdOff := rfl
@[simp] theorem State.setTravel_sweep : (s.setTravel x).sweep = s.sweep := rfl
@[simp] theorem State.setTravel_meter : (s.setTravel x).meter = s.meter := rfl
@[simp] theorem State.setTravel_exposure : (s.setTravel x).exposure = s.exposure := rfl
@[simp] theorem State.setTravel_stab : (s.setTravel x).stab = s.stab := rfl
@[simp] theorem State.setTravel_release : (s.setTravel x).release = s.release := rfl
@[simp] theorem State.setTravel_link : (s.setTravel x).link = s.link := rfl
@[simp] theorem State.setTravel_standby : (s.setTravel x).standby = s.standby := rfl
@[simp] theorem State.setTravel_entering : (s.setTravel x).entering = s.entering := rfl
@[simp] theorem State.setTravel_sent : (s.setTravel x).sent = s.sent := rfl
@[simp] theorem State.setTravel_pins : (s.setTravel x).pins = s.pins := rfl
@[simp] theorem State.setTravel_handoffs : (s.setTravel x).handoffs = s.handoffs := rfl
@[simp] theorem State.setTravel_freeCount : (s.setTravel x).freeCount = s.freeCount := rfl
@[simp] theorem State.setTravel_pending : (s.setTravel x).pending = s.pending := rfl
@[simp] theorem State.setTravel_axis (a : AxisId) : (s.setTravel x).axis a = s.axis a := by cases a <;> rfl
end setTravel

section setHoldOff
variable (x : Bool)
@[simp] theorem State.setHoldOff_map : (s.setHoldOff x).map = s.map := rfl
@[simp] theorem State.setHoldOff_resolver : (s.setHoldOff x).resolver = s.resolver := rfl
@[simp] theorem State.setHoldOff_zoom : (s.setHoldOff x).zoom = s.zoom := rfl
@[simp] theorem State.setHoldOff_focus : (s.setHoldOff x).focus = s.focus := rfl
@[simp] theorem State.setHoldOff_iris : (s.setHoldOff x).iris = s.iris := rfl
@[simp] theorem State.setHoldOff_travel : (s.setHoldOff x).travel = s.travel := rfl
@[simp] theorem State.setHoldOff_holdOff : (s.setHoldOff x).holdOff = x := rfl
@[simp] theorem State.setHoldOff_sweep : (s.setHoldOff x).sweep = s.sweep := rfl
@[simp] theorem State.setHoldOff_meter : (s.setHoldOff x).meter = s.meter := rfl
@[simp] theorem State.setHoldOff_exposure : (s.setHoldOff x).exposure = s.exposure := rfl
@[simp] theorem State.setHoldOff_stab : (s.setHoldOff x).stab = s.stab := rfl
@[simp] theorem State.setHoldOff_release : (s.setHoldOff x).release = s.release := rfl
@[simp] theorem State.setHoldOff_link : (s.setHoldOff x).link = s.link := rfl
@[simp] theorem State.setHoldOff_standby : (s.setHoldOff x).standby = s.standby := rfl
@[simp] theorem State.setHoldOff_entering : (s.setHoldOff x).entering = s.entering := rfl
@[simp] theorem State.setHoldOff_sent : (s.setHoldOff x).sent = s.sent := rfl
@[simp] theorem State.setHoldOff_pins : (s.setHoldOff x).pins = s.pins := rfl
@[simp] theorem State.setHoldOff_handoffs : (s.setHoldOff x).handoffs = s.handoffs := rfl
@[simp] theorem State.setHoldOff_freeCount : (s.setHoldOff x).freeCount = s.freeCount := rfl
@[simp] theorem State.setHoldOff_pending : (s.setHoldOff x).pending = s.pending := rfl
@[simp] theorem State.setHoldOff_axis (a : AxisId) : (s.setHoldOff x).axis a = s.axis a := by cases a <;> rfl
end setHoldOff

section setSweep
variable (x : SweepUnit)
@[simp] theorem State.setSweep_map : (s.setSweep x).map = s.map := rfl
@[simp] theorem State.setSweep_resolver : (s.setSweep x).resolver = s.resolver := rfl
@[simp] theorem State.setSweep_zoom : (s.setSweep x).zoom = s.zoom := rfl
@[simp] theorem State.setSweep_focus : (s.setSweep x).focus = s.focus := rfl
@[simp] theorem State.setSweep_iris : (s.setSweep x).iris = s.iris := rfl
@[simp] theorem State.setSweep_travel : (s.setSweep x).travel = s.travel := rfl
@[simp] theorem State.setSweep_holdOff : (s.setSweep x).holdOff = s.holdOff := rfl
@[simp] theorem State.setSweep_sweep : (s.setSweep x).sweep = x := rfl
@[simp] theorem State.setSweep_meter : (s.setSweep x).meter = s.meter := rfl
@[simp] theorem State.setSweep_exposure : (s.setSweep x).exposure = s.exposure := rfl
@[simp] theorem State.setSweep_stab : (s.setSweep x).stab = s.stab := rfl
@[simp] theorem State.setSweep_release : (s.setSweep x).release = s.release := rfl
@[simp] theorem State.setSweep_link : (s.setSweep x).link = s.link := rfl
@[simp] theorem State.setSweep_standby : (s.setSweep x).standby = s.standby := rfl
@[simp] theorem State.setSweep_entering : (s.setSweep x).entering = s.entering := rfl
@[simp] theorem State.setSweep_sent : (s.setSweep x).sent = s.sent := rfl
@[simp] theorem State.setSweep_pins : (s.setSweep x).pins = s.pins := rfl
@[simp] theorem State.setSweep_handoffs : (s.setSweep x).handoffs = s.handoffs := rfl
@[simp] theorem State.setSweep_freeCount : (s.setSweep x).freeCount = s.freeCount := rfl
@[simp] theorem State.setSweep_pending : (s.setSweep x).pending = s.pending := rfl
@[simp] theorem State.setSweep_axis (a : AxisId) : (s.setSweep x).axis a = s.axis a := by cases a <;> rfl
end setSweep

section setMeter
variable (x : MeterUnit)
@[simp] theorem State.setMeter_map : (s.setMeter x).map = s.map := rfl
@[simp] theorem State.setMeter_resolver : (s.setMeter x).resolver = s.resolver := rfl
@[simp] theorem State.setMeter_zoom : (s.setMeter x).zoom = s.zoom := rfl
@[simp] theorem State.setMeter_focus : (s.setMeter x).focus = s.focus := rfl
@[simp] theorem State.setMeter_iris : (s.setMeter x).iris = s.iris := rfl
@[simp] theorem State.setMeter_travel : (s.setMeter x).travel = s.travel := rfl
@[simp] theorem State.setMeter_holdOff : (s.setMeter x).holdOff = s.holdOff := rfl
@[simp] theorem State.setMeter_sweep : (s.setMeter x).sweep = s.sweep := rfl
@[simp] theorem State.setMeter_meter : (s.setMeter x).meter = x := rfl
@[simp] theorem State.setMeter_exposure : (s.setMeter x).exposure = s.exposure := rfl
@[simp] theorem State.setMeter_stab : (s.setMeter x).stab = s.stab := rfl
@[simp] theorem State.setMeter_release : (s.setMeter x).release = s.release := rfl
@[simp] theorem State.setMeter_link : (s.setMeter x).link = s.link := rfl
@[simp] theorem State.setMeter_standby : (s.setMeter x).standby = s.standby := rfl
@[simp] theorem State.setMeter_entering : (s.setMeter x).entering = s.entering := rfl
@[simp] theorem State.setMeter_sent : (s.setMeter x).sent = s.sent := rfl
@[simp] theorem State.setMeter_pins : (s.setMeter x).pins = s.pins := rfl
@[simp] theorem State.setMeter_handoffs : (s.setMeter x).handoffs = s.handoffs := rfl
@[simp] theorem State.setMeter_freeCount : (s.setMeter x).freeCount = s.freeCount := rfl
@[simp] theorem State.setMeter_pending : (s.setMeter x).pending = s.pending := rfl
@[simp] theorem State.setMeter_axis (a : AxisId) : (s.setMeter x).axis a = s.axis a := by cases a <;> rfl
end setMeter

section setExposure
variable (x : ExposureUnit)
@[simp] theorem State.setExposure_map : (s.setExposure x).map = s.map := rfl
@[simp] theorem State.setExposure_resolver : (s.setExposure x).resolver = s.resolver := rfl
@[simp] theorem State.setExposure_zoom : (s.setExposure x).zoom = s.zoom := rfl
@[simp] theorem State.setExposure_focus : (s.setExposure x).focus = s.focus := rfl
@[simp] theorem State.setExposure_iris : (s.setExposure x).iris = s.iris := rfl
@[simp] theorem State.setExposure_travel : (s.setExposure x).travel = s.travel := rfl
@[simp] theorem State.setExposure_holdOff : (s.setExposure x).holdOff = s.holdOff := rfl
@[simp] theorem State.setExposure_sweep : (s.setExposure x).sweep = s.sweep := rfl
@[simp] theorem State.setExposure_meter : (s.setExposure x).meter = s.meter := rfl
@[simp] theorem State.setExposure_exposure : (s.setExposure x).exposure = x := rfl
@[simp] theorem State.setExposure_stab : (s.setExposure x).stab = s.stab := rfl
@[simp] theorem State.setExposure_release : (s.setExposure x).release = s.release := rfl
@[simp] theorem State.setExposure_link : (s.setExposure x).link = s.link := rfl
@[simp] theorem State.setExposure_standby : (s.setExposure x).standby = s.standby := rfl
@[simp] theorem State.setExposure_entering : (s.setExposure x).entering = s.entering := rfl
@[simp] theorem State.setExposure_sent : (s.setExposure x).sent = s.sent := rfl
@[simp] theorem State.setExposure_pins : (s.setExposure x).pins = s.pins := rfl
@[simp] theorem State.setExposure_handoffs : (s.setExposure x).handoffs = s.handoffs := rfl
@[simp] theorem State.setExposure_freeCount : (s.setExposure x).freeCount = s.freeCount := rfl
@[simp] theorem State.setExposure_pending : (s.setExposure x).pending = s.pending := rfl
@[simp] theorem State.setExposure_axis (a : AxisId) : (s.setExposure x).axis a = s.axis a := by cases a <;> rfl
end setExposure

section setStab
variable (x : Stabilizer)
@[simp] theorem State.setStab_map : (s.setStab x).map = s.map := rfl
@[simp] theorem State.setStab_resolver : (s.setStab x).resolver = s.resolver := rfl
@[simp] theorem State.setStab_zoom : (s.setStab x).zoom = s.zoom := rfl
@[simp] theorem State.setStab_focus : (s.setStab x).focus = s.focus := rfl
@[simp] theorem State.setStab_iris : (s.setStab x).iris = s.iris := rfl
@[simp] theorem State.setStab_travel : (s.setStab x).travel = s.travel := rfl
@[simp] theorem State.setStab_holdOff : (s.setStab x).holdOff = s.holdOff := rfl
@[simp] theorem State.setStab_sweep : (s.setStab x).sweep = s.sweep := rfl
@[simp] theorem State.setStab_meter : (s.setStab x).meter = s.meter := rfl
@[simp] theorem State.setStab_exposure : (s.setStab x).exposure = s.exposure := rfl
@[simp] theorem State.setStab_stab : (s.setStab x).stab = x := rfl
@[simp] theorem State.setStab_release : (s.setStab x).release = s.release := rfl
@[simp] theorem State.setStab_link : (s.setStab x).link = s.link := rfl
@[simp] theorem State.setStab_standby : (s.setStab x).standby = s.standby := rfl
@[simp] theorem State.setStab_entering : (s.setStab x).entering = s.entering := rfl
@[simp] theorem State.setStab_sent : (s.setStab x).sent = s.sent := rfl
@[simp] theorem State.setStab_pins : (s.setStab x).pins = s.pins := rfl
@[simp] theorem State.setStab_handoffs : (s.setStab x).handoffs = s.handoffs := rfl
@[simp] theorem State.setStab_freeCount : (s.setStab x).freeCount = s.freeCount := rfl
@[simp] theorem State.setStab_pending : (s.setStab x).pending = s.pending := rfl
@[simp] theorem State.setStab_axis (a : AxisId) : (s.setStab x).axis a = s.axis a := by cases a <;> rfl
end setStab

section setRelease
variable (x : Release)
@[simp] theorem State.setRelease_map : (s.setRelease x).map = s.map := rfl
@[simp] theorem State.setRelease_resolver : (s.setRelease x).resolver = s.resolver := rfl
@[simp] theorem State.setRelease_zoom : (s.setRelease x).zoom = s.zoom := rfl
@[simp] theorem State.setRelease_focus : (s.setRelease x).focus = s.focus := rfl
@[simp] theorem State.setRelease_iris : (s.setRelease x).iris = s.iris := rfl
@[simp] theorem State.setRelease_travel : (s.setRelease x).travel = s.travel := rfl
@[simp] theorem State.setRelease_holdOff : (s.setRelease x).holdOff = s.holdOff := rfl
@[simp] theorem State.setRelease_sweep : (s.setRelease x).sweep = s.sweep := rfl
@[simp] theorem State.setRelease_meter : (s.setRelease x).meter = s.meter := rfl
@[simp] theorem State.setRelease_exposure : (s.setRelease x).exposure = s.exposure := rfl
@[simp] theorem State.setRelease_stab : (s.setRelease x).stab = s.stab := rfl
@[simp] theorem State.setRelease_release : (s.setRelease x).release = x := rfl
@[simp] theorem State.setRelease_link : (s.setRelease x).link = s.link := rfl
@[simp] theorem State.setRelease_standby : (s.setRelease x).standby = s.standby := rfl
@[simp] theorem State.setRelease_entering : (s.setRelease x).entering = s.entering := rfl
@[simp] theorem State.setRelease_sent : (s.setRelease x).sent = s.sent := rfl
@[simp] theorem State.setRelease_pins : (s.setRelease x).pins = s.pins := rfl
@[simp] theorem State.setRelease_handoffs : (s.setRelease x).handoffs = s.handoffs := rfl
@[simp] theorem State.setRelease_freeCount : (s.setRelease x).freeCount = s.freeCount := rfl
@[simp] theorem State.setRelease_pending : (s.setRelease x).pending = s.pending := rfl
@[simp] theorem State.setRelease_axis (a : AxisId) : (s.setRelease x).axis a = s.axis a := by cases a <;> rfl
end setRelease

section setLink
variable (x : LinkState)
@[simp] theorem State.setLink_map : (s.setLink x).map = s.map := rfl
@[simp] theorem State.setLink_resolver : (s.setLink x).resolver = s.resolver := rfl
@[simp] theorem State.setLink_zoom : (s.setLink x).zoom = s.zoom := rfl
@[simp] theorem State.setLink_focus : (s.setLink x).focus = s.focus := rfl
@[simp] theorem State.setLink_iris : (s.setLink x).iris = s.iris := rfl
@[simp] theorem State.setLink_travel : (s.setLink x).travel = s.travel := rfl
@[simp] theorem State.setLink_holdOff : (s.setLink x).holdOff = s.holdOff := rfl
@[simp] theorem State.setLink_sweep : (s.setLink x).sweep = s.sweep := rfl
@[simp] theorem State.setLink_meter : (s.setLink x).meter = s.meter := rfl
@[simp] theorem State.setLink_exposure : (s.setLink x).exposure = s.exposure := rfl
@[simp] theorem State.setLink_stab : (s.setLink x).stab = s.stab := rfl
@[simp] theorem State.setLink_release : (s.setLink x).release = s.release := rfl
@[simp] theorem State.setLink_link : (s.setLink x).link = x := rfl
@[simp] theorem State.setLink_standby : (s.setLink x).standby = s.standby := rfl
@[simp] theorem State.setLink_entering : (s.setLink x).entering = s.entering := rfl
@[simp] theorem State.setLink_sent : (s.setLink x).sent = s.sent := rfl
@[simp] theorem State.setLink_pins : (s.setLink x).pins = s.pins := rfl
@[simp] theorem State.setLink_handoffs : (s.setLink x).handoffs = s.handoffs := rfl
@[simp] theorem State.setLink_freeCount : (s.setLink x).freeCount = s.freeCount := rfl
@[simp] theorem State.setLink_pending : (s.setLink x).pending = s.pending := rfl
@[simp] theorem State.setLink_axis (a : AxisId) : (s.setLink x).axis a = s.axis a := by cases a <;> rfl
end setLink

section setStandby
variable (x : Bool)
@[simp] theorem State.setStandby_map : (s.setStandby x).map = s.map := rfl
@[simp] theorem State.setStandby_resolver : (s.setStandby x).resolver = s.resolver := rfl
@[simp] theorem State.setStandby_zoom : (s.setStandby x).zoom = s.zoom := rfl
@[simp] theorem State.setStandby_focus : (s.setStandby x).focus = s.focus := rfl
@[simp] theorem State.setStandby_iris : (s.setStandby x).iris = s.iris := rfl
@[simp] theorem State.setStandby_travel : (s.setStandby x).travel = s.travel := rfl
@[simp] theorem State.setStandby_holdOff : (s.setStandby x).holdOff = s.holdOff := rfl
@[simp] theorem State.setStandby_sweep : (s.setStandby x).sweep = s.sweep := rfl
@[simp] theorem State.setStandby_meter : (s.setStandby x).meter = s.meter := rfl
@[simp] theorem State.setStandby_exposure : (s.setStandby x).exposure = s.exposure := rfl
@[simp] theorem State.setStandby_stab : (s.setStandby x).stab = s.stab := rfl
@[simp] theorem State.setStandby_release : (s.setStandby x).release = s.release := rfl
@[simp] theorem State.setStandby_link : (s.setStandby x).link = s.link := rfl
@[simp] theorem State.setStandby_standby : (s.setStandby x).standby = x := rfl
@[simp] theorem State.setStandby_entering : (s.setStandby x).entering = s.entering := rfl
@[simp] theorem State.setStandby_sent : (s.setStandby x).sent = s.sent := rfl
@[simp] theorem State.setStandby_pins : (s.setStandby x).pins = s.pins := rfl
@[simp] theorem State.setStandby_handoffs : (s.setStandby x).handoffs = s.handoffs := rfl
@[simp] theorem State.setStandby_freeCount : (s.setStandby x).freeCount = s.freeCount := rfl
@[simp] theorem State.setStandby_pending : (s.setStandby x).pending = s.pending := rfl
@[simp] theorem State.setStandby_axis (a : AxisId) : (s.setStandby x).axis a = s.axis a := by cases a <;> rfl
end setStandby

section setSent
variable (x : Bytes)
@[simp] theorem State.setSent_map : (s.setSent x).map = s.map := rfl
@[simp] theorem State.setSent_resolver : (s.setSent x).resolver = s.resolver := rfl
@[simp] theorem State.setSent_zoom : (s.setSent x).zoom = s.zoom := rfl
@[simp] theorem State.setSent_focus : (s.setSent x).focus = s.focus := rfl
@[simp] theorem State.setSent_iris : (s.setSent x).iris = s.iris := rfl
@[simp] theorem State.setSent_travel : (s.setSent x).travel = s.travel := rfl
@[simp] theorem State.setSent_holdOff : (s.setSent x).holdOff = s.holdOff := rfl
@[simp] theorem State.setSent_sweep : (s.setSent x).sweep = s.sweep := rfl
@[simp] theorem State.setSent_meter : (s.setSent x).meter = s.meter := rfl
@[simp] theorem State.setSent_exposure : (s.setSent x).exposure = s.exposure := rfl
@[simp] theorem State.setSent_stab : (s.setSent x).stab = s.stab := rfl
@[simp] theorem State.setSent_release : (s.setSent x).release = s.release := rfl
@[simp] theorem State.setSent_link : (s.setSent x).link = s.link := rfl
@[simp] theorem State.setSent_standby : (s.setSent x).standby = s.standby := rfl
@[simp] theorem State.setSent_entering : (s.setSent x).entering = s.entering := rfl
@[simp] theorem State.setSent_sent : (s.setSent x).sent = x := rfl
@[simp] theorem State.setSent_pins : (s.setSent x).pins = s.pins := rfl
@[simp] theorem State.setSent_handoffs : (s.setSent x).handoffs = s.handoffs := rfl
@[simp] theorem State.setSent_freeCount : (s.setSent x).freeCount = s.freeCount := rfl
@[simp] theorem State.setSent_pending : (s.setSent x).pending = s.pending := rfl
@[simp] theorem State.setSent_axis (a : AxisId) : (s.setSent x).axis a = s.axis a := by cases a <;> rfl
end setSent

section setPins
variable (x : Pins)
@[simp] theorem State.setPins_map : (s.setPins x).map = s.map := rfl
@[simp] theorem State.setPins_resolver : (s.setPins x).resolver = s.resolver := rfl
@[simp] theorem State.setPins_zoom : (s.setPins x).zoom = s.zoom := rfl
@[simp] theorem State.setPins_focus : (s.setPins x).focus = s.focus := rfl
@[simp] theorem State.setPins_iris : (s.setPins x).iris = s.iris := rfl
@[simp] theorem State.setPins_travel : (s.setPins x).travel = s.travel := rfl
@[simp] theorem State.setPins_holdOff : (s.setPins x).holdOff = s.holdOff := rfl
@[simp] theorem State.setPins_sweep : (s.setPins x).sweep = s.sweep := rfl
@[simp] theorem State.setPins_meter : (s.setPins x).meter = s.meter := rfl
@[simp] theorem State.setPins_exposure : (s.setPins x).exposure = s.exposure := rfl
@[simp] theorem State.setPins_stab : (s.setPins x).stab = s.stab := rfl
@[simp] theorem State.setPins_release : (s.setPins x).release = s.release := rfl
@[simp] theorem State.setPins_link : (s.setPins x).link = s.link := rfl
@[simp] theorem State.setPins_standby : (s.setPins x).standby = s.standby := rfl
@[simp] theorem State.setPins_entering : (s.setPins x).entering = s.entering := rfl
@[simp] theorem State.setPins_sent : (s.setPins x).sent = s.sent := rfl
@[simp] theorem State.setPins_pins : (s.setPins x).pins = x := rfl
@[simp] theorem State.setPins_handoffs : (s.setPins x).handoffs = s.handoffs := rfl
@[simp] theorem State.setPins_freeCount : (s.setPins x).freeCount = s.freeCount := rfl
@[simp] theorem State.setPins_pending : (s.setPins x).pending = s.pending := rfl
@[simp] theorem State.setPins_axis (a : AxisId) : (s.setPins x).axis a = s.axis a := by cases a <;> rfl
end setPins

section setHandoffs
variable (x : Handoffs)
@[simp] theorem State.setHandoffs_map : (s.setHandoffs x).map = s.map := rfl
@[simp] theorem State.setHandoffs_resolver : (s.setHandoffs x).resolver = s.resolver := rfl
@[simp] theorem State.setHandoffs_zoom : (s.setHandoffs x).zoom = s.zoom := rfl
@[simp] theorem State.setHandoffs_focus : (s.setHandoffs x).focus = s.focus := rfl
@[simp] theorem State.setHandoffs_iris : (s.setHandoffs x).iris = s.iris := rfl
@[simp] theorem State.setHandoffs_travel : (s.setHandoffs x).travel = s.travel := rfl
@[simp] theorem State.setHandoffs_holdOff : (s.setHandoffs x).holdOff = s.holdOff := rfl
@[simp] theorem State.setHandoffs_sweep : (s.setHandoffs x).sweep = s.sweep := rfl
@[simp] theorem State.setHandoffs_meter : (s.setHandoffs x).meter = s.meter := rfl
@[simp] theorem State.setHandoffs_exposure : (s.setHandoffs x).exposure = s.exposure := rfl
@[simp] theorem State.setHandoffs_stab : (s.setHandoffs x).stab = s.stab := rfl
@[simp] theorem State.setHandoffs_release : (s.setHandoffs x).release = s.release := rfl
@[simp] theorem State.setHandoffs_link : (s.setHandoffs x).link = s.link := rfl
@[simp] theorem State.setHandoffs_standby : (s.setHandoffs x).standby = s.standby := rfl
@[simp] theorem State.setHandoffs_entering : (s.setHandoffs x).entering = s.entering := rfl
@[simp] theorem State.setHandoffs_sent : (s.setHandoffs x).sent = s.sent := rfl
@[simp] theorem State.setHandoffs_pins : (s.setHandoffs x).pins = s.pins := rfl
@[simp] theorem State.setHandoffs_handoffs : (s.setHandoffs x).handoffs = x := rfl
@[simp] theorem State.setHandoffs_freeCount : (s.setHandoffs x).freeCount = s.freeCount := rfl
@[simp] theorem State.setHandoffs_pending : (s.setHandoffs x).pending = s.pending := rfl
@[simp] theorem State.setHandoffs_axis (a : AxisId) : (s.setHandoffs x).axis a = s.axis a := by cases a <;> rfl
end setHandoffs

section setFreeCount
variable (x : Nat)
@[simp] theorem State.setFreeCount_map : (s.setFreeCount x).map = s.map := rfl
@[simp] theorem State.setFreeCount_resolver : (s.setFreeCount x).resolver = s.resolver := rfl
@[simp] theorem State.setFreeCount_zoom : (s.setFreeCount x).zoom = s.zoom := rfl
@[simp] theorem State.setFreeCount_focus : (s.setFreeCount x).focus = s.focus := rfl
@[simp] theorem State.setFreeCount_iris : (s.setFreeCount x).iris = s.iris := rfl
@[simp] theorem State.setFreeCount_travel : (s.setFreeCount x).travel = s.travel := rfl
@[simp] theorem State.setFreeCount_holdOff : (s.setFreeCount x).holdOff = s.holdOff := rfl
@[simp] theorem State.setFreeCount_sweep : (s.setFreeCount x).sweep = s.sweep := rfl
@[simp] theorem State.setFreeCount_meter : (s.setFreeCount x).meter = s.meter := rfl
@[simp] theorem State.setFreeCount_exposure : (s.setFreeCount x).exposure = s.exposure := rfl
@[simp] theorem State.setFreeCount_stab : (s.setFreeCount x).stab = s.stab := rfl
@[simp] theorem State.setFreeCount_release : (s.setFreeCount x).release = s.release := rfl
@[simp] theorem State.setFreeCount_link : (s.setFreeCount x).link = s.link := rfl
@[simp] theorem State.setFreeCount_standby : (s.setFreeCount x).standby = s.standby := rfl
@[simp] theorem State.setFreeCount_entering : (s.setFreeCount x).entering = s.entering := rfl
@[simp] theorem State.setFreeCount_sent : (s.setFreeCount x).sent = s.sent := rfl
@[simp] theorem State.setFreeCount_pins : (s.setFreeCount x).pins = s.pins := rfl
@[simp] theorem State.setFreeCount_handoffs : (s.setFreeCount x).handoffs = s.handoffs := rfl
@[simp] theorem State.setFreeCount_freeCount : (s.setFreeCount x).freeCount = x := rfl
@[simp] theorem State.setFreeCount_pending : (s.setFreeCount x).pending = s.pending := rfl
@[simp] theorem State.setFreeCount_axis (a : AxisId) : (s.setFreeCount x).axis a = s.axis a := by cases a <;> rfl
end setFreeCount

section setPending
variable (x : List Instr)
@[simp] theorem State.setPending_map : (s.setPending x).map = s.map := rfl
@[simp] theorem State.setPending_resolver : (s.setPending x).resolver = s.resolver := rfl
@[simp] theorem State.setPending_zoom : (s.setPending x).zoom = s.zoom := rfl
@[simp] theorem State.setPending_focus : (s.setPending x).focus = s.focus := rfl
@[simp] theorem State.setPending_iris : (s.setPending x).iris = s.iris := rfl
@[simp] theorem State.setPending_travel : (s.setPending x).travel = s.travel := rfl
@[simp] theorem State.setPending_holdOff : (s.setPending x).holdOff = s.holdOff := rfl
@[simp] theorem State.setPending_sweep : (s.setPending x).sweep = s.sweep := rfl
@[simp] theorem State.setPending_meter : (s.setPending x).meter = s.meter := rfl
@[simp] theorem State.setPending_exposure : (s.setPending x).exposure = s.exposure := rfl
@[simp] theorem State.setPending_stab : (s.setPending x).stab = s.stab := rfl
@[simp] theorem State.setPending_release : (s.setPending x).release = s.release := rfl
@[simp] theorem State.setPending_link : (s.setPending x).link = s.link := rfl
@[simp] theorem State.setPending_standby : (s.setPending x).standby = s.standby := rfl
@[simp] theorem State.setPending_entering : (s.setPending x).entering = s.entering := rfl
@[simp] theorem State.setPending_sent : (s.setPending x).sent = s.sent := rfl
@[simp] theorem State.setPending_pins : (s.setPending x).pins = s.pins := rfl
@[simp] theorem State.setPending_handoffs : (s.setPending x).handoffs = s.handoffs := rfl
@[simp] theorem State.setPending_freeCount : (s.setPending x).freeCount = s.freeCount := rfl
@[simp] theorem State.setPending_pending : (s.setPending x).pending = x := rfl
@[simp] theorem State.setPending_axis (a : AxisId) : (s.setPending x).axis a = s.axis a := by cases a <;> rfl
end setPending

section setAxis
variable (r : AxisRecord)
@[simp] theorem State.setAxis_map (a : AxisId) : (s.setAxis a r).map = s.map := by cases a <;> rfl
@[simp] theorem State.setAxis_resolver (a : AxisId) : (s.setAxis a r).resolver = s.resolver := by cases a <;> rfl
@[simp] theorem State.setAxis_travel (a : AxisId) : (s.setAxis a r).travel = s.travel := by cases a <;> rfl
@[simp] theorem State.setAxis_holdOff (a : AxisId) : (s.setAxis a r).holdOff = s.holdOff := by cases a <;> rfl
@[simp] theorem State.setAxis_sweep (a : AxisId) : (s.setAxis a r).sweep = s.sweep := by cases a <;> rfl
@[simp] theorem State.setAxis_meter (a : AxisId) : (s.setAxis a r).meter = s.meter := by cases a <;> rfl
@[simp] theorem State.setAxis_exposure (a : AxisId) : (s.setAxis a r).exposure = s.exposure := by cases a <;> rfl
@[simp] theorem State.setAxis_stab (a : AxisId) : (s.setAxis a r).stab = s.stab := by cases a <;> rfl
@[simp] theorem State.setAxis_release (a : AxisId) : (s.setAxis a r).release = s.release := by cases a <;> rfl
@[simp] theorem State.setAxis_link (a : AxisId) : (s.setAxis a r).link = s.link := by cases a <;> rfl
@[simp] theorem State.setAxis_standby (a : AxisId) : (s.setAxis a r).standby = s.standby := by cases a <;> rfl
@[simp] theorem State.setAxis_entering (a : AxisId) : (s.setAxis a r).entering = s.entering := by cases a <;> rfl
@[simp] theorem State.setAxis_sent (a : AxisId) : (s.setAxis a r).sent = s.sent := by cases a <;> rfl
@[simp] theorem State.setAxis_pins (a : AxisId) : (s.setAxis a r).pins = s.pins := by cases a <;> rfl
@[simp] theorem State.setAxis_handoffs (a : AxisId) : (s.setAxis a r).handoffs = s.handoffs := by cases a <;> rfl
@[simp] theorem State.setAxis_freeCount (a : AxisId) : (s.setAxis a r).freeCount = s.freeCount := by cases a <;> rfl
@[simp] theorem State.setAxis_pending (a : AxisId) : (s.setAxis a r).pending = s.pending := by cases a <;> rfl
@[simp] theorem State.setAxis_zoom_zoom : (s.setAxis .zoom r).zoom = r := rfl
@[simp] theorem State.setAxis_zoom_focus : (s.setAxis .zoom r).focus = s.focus := rfl
@[simp] theorem State.setAxis_zoom_iris : (s.setAxis .zoom r).iris = s.iris := rfl
@[simp] theorem State.setAxis_focus_zoom : (s.setAxis .focus r).zoom = s.zoom := rfl
@[simp] theorem State.setAxis_focus_focus : (s.setAxis .focus r).focus = r := rfl
@[simp] theorem State.setAxis_focus_iris : (s.setAxis .focus r).iris = s.iris := rfl
@[simp] theorem State.setAxis_iris_zoom : (s.setAxis .iris r).zoom = s.zoom := rfl
@[simp] theorem State.setAxis_iris_focus : (s.setAxis .iris r).focus = s.focus := rfl
@[simp] theorem State.setAxis_iris_iris : (s.setAxis .iris r).iris = r := rfl
@[simp] theorem State.setAxis_axis (a b : AxisId) : (s.setAxis a r).axis b = if b = a then r else s.axis b := by
  cases a <;> cases b <;> rfl
@[simp] theorem State.axis_zoom : s.axis .zoom = s.zoom := rfl
@[simp] theorem State.axis_focus : s.axis .focus = s.focus := rfl
@[simp] theorem State.axis_iris : s.axis .iris = s.iris := rfl
end setAxis

/-! A hand-off is an update of the hand-offs. -/

@[simp] theorem State.postDrain_eq : s.postDrain = s.setHandoffs { s.handoffs with drains := s.handoffs.drains + 1 } := rfl
@[simp] theorem State.postReports_eq (r : List Report) : s.postReports r = s.setHandoffs { s.handoffs with reports := s.handoffs.reports ++ r } := rfl
@[simp] theorem State.postLoad_eq (r : TrackLoad) : s.postLoad r = s.setHandoffs { s.handoffs with loads := s.handoffs.loads ++ [r] } := rfl
@[simp] theorem State.postStab_eq (r : StabNotice) : s.postStab r = s.setHandoffs { s.handoffs with stab := s.handoffs.stab ++ [r] } := rfl
@[simp] theorem State.postScene_eq (r : Vector ZoneResult 8) : s.postScene r = s.setHandoffs { s.handoffs with scenes := s.handoffs.scenes ++ [r] } := rfl
@[simp] theorem State.postSteady_eq : s.postSteady = s.setHandoffs { s.handoffs with steady := s.handoffs.steady + 1 } := rfl
@[simp] theorem State.postPin_eq : s.postPin = s.setHandoffs { s.handoffs with pins := s.handoffs.pins + 1 } := rfl

end Sys2Proof.Machine
end

