-- ==== Sys2Proof/Laws/Aside.lean ====
section
/-! SUPPORT. What the shared operations never touch: the lens map, the link, the bytes last sent, the profile hold-off and the
queue of commands (`aside`); and, but for the presses of the switch, metering, standby and the free counter (`apart`). One lemma
per operation. -/

set_option linter.unusedTactic false
set_option linter.unreachableTactic false

namespace Sys2Proof.Machine

/-- What no operation on axes, record, sweep, exposure or release touches. -/
def State.aside (s : State) : LensMap × LinkState × Bytes × Bool × List Instr :=
  (s.map, s.link, s.sent, s.holdOff, s.pending)

/-- What only the presses of the switch and the system requests touch. -/
def State.apart (s : State) : MeterUnit × Bool × Nat := (s.meter, s.standby, s.freeCount)

theorem State.map_of_aside {s t : State} (h : s.aside = t.aside) : s.map = t.map := congrArg (·.1) h
theorem State.link_of_aside {s t : State} (h : s.aside = t.aside) : s.link = t.link := congrArg (·.2.1) h
theorem State.sent_of_aside {s t : State} (h : s.aside = t.aside) : s.sent = t.sent := congrArg (·.2.2.1) h
theorem State.holdOff_of_aside {s t : State} (h : s.aside = t.aside) : s.holdOff = t.holdOff := congrArg (·.2.2.2.1) h
theorem State.pending_of_aside {s t : State} (h : s.aside = t.aside) : s.pending = t.pending := congrArg (·.2.2.2.2) h
theorem State.meter_of_apart {s t : State} (h : s.apart = t.apart) : s.meter = t.meter := congrArg (·.1) h
theorem State.standby_of_apart {s t : State} (h : s.apart = t.apart) : s.standby = t.standby := congrArg (·.2.1) h

/-! ### Updates of one record -/

variable (s : State)

@[simp] theorem State.setResolver_aside (x : Resolver) : (s.setResolver x).aside = s.aside := rfl
@[simp] theorem State.setResolver_apart (x : Resolver) : (s.setResolver x).apart = s.apart := rfl
@[simp] theorem State.setTravel_aside (x : ZoomTravel) : (s.setTravel x).aside = s.aside := rfl
@[simp] theorem State.setTravel_apart (x : ZoomTravel) : (s.setTravel x).apart = s.apart := rfl
@[simp] theorem State.setSweep_aside (x : SweepUnit) : (s.setSweep x).aside = s.aside := rfl
@[simp] theorem State.setSweep_apart (x : SweepUnit) : (s.setSweep x).apart = s.apart := rfl
@[simp] theorem State.setExposure_aside (x : ExposureUnit) : (s.setExposure x).aside = s.aside := rfl
@[simp] theorem State.setExposure_apart (x : ExposureUnit) : (s.setExposure x).apart = s.apart := rfl
@[simp] theorem State.setStab_aside (x : Stabilizer) : (s.setStab x).aside = s.aside := rfl
@[simp] theorem State.setStab_apart (x : Stabilizer) : (s.setStab x).apart = s.apart := rfl
@[simp] theorem State.setRelease_aside (x : Release) : (s.setRelease x).aside = s.aside := rfl
@[simp] theorem State.setRelease_apart (x : Release) : (s.setRelease x).apart = s.apart := rfl
@[simp] theorem State.setPins_aside (x : Pins) : (s.setPins x).aside = s.aside := rfl
@[simp] theorem State.setPins_apart (x : Pins) : (s.setPins x).apart = s.apart := rfl
@[simp] theorem State.setHandoffs_aside (x : Handoffs) : (s.setHandoffs x).aside = s.aside := rfl
@[simp] theorem State.setHandoffs_apart (x : Handoffs) : (s.setHandoffs x).apart = s.apart := rfl
@[simp] theorem State.setMeter_aside (x : MeterUnit) : (s.setMeter x).aside = s.aside := rfl
@[simp] theorem State.setStandby_aside (x : Bool) : (s.setStandby x).aside = s.aside := rfl
@[simp] theorem State.setEntering_aside (x : Bool) : (s.setEntering x).aside = s.aside := rfl
@[simp] theorem State.setEntering_apart (x : Bool) : (s.setEntering x).apart = s.apart := rfl
@[simp] theorem State.setFreeCount_aside (x : Nat) : (s.setFreeCount x).aside = s.aside := rfl
@[simp] theorem State.setMap_apart (x : LensMap) : (s.setMap x).apart = s.apart := rfl
@[simp] theorem State.setLink_apart (x : LinkState) : (s.setLink x).apart = s.apart := rfl
@[simp] theorem State.setSent_apart (x : Bytes) : (s.setSent x).apart = s.apart := rfl
@[simp] theorem State.setHoldOff_apart (x : Bool) : (s.setHoldOff x).apart = s.apart := rfl
@[simp] theorem State.setPending_apart (x : List Instr) : (s.setPending x).apart = s.apart := rfl
@[simp] theorem State.setAxis_aside (a : AxisId) (r : AxisRecord) : (s.setAxis a r).aside = s.aside := by cases a <;> rfl
@[simp] theorem State.setAxis_apart (a : AxisId) (r : AxisRecord) : (s.setAxis a r).apart = s.apart := by cases a <;> rfl

/-! ### ResolverOps -/

@[simp] theorem State.unresolve_aside : (s.unresolve).aside = s.aside := by
  unfold State.unresolve; try dsimp only
  repeat' split
  all_goals simp
@[simp] theorem State.unresolve_apart : (s.unresolve).apart = s.apart := by
  unfold State.unresolve; try dsimp only
  repeat' split
  all_goals simp
@[simp] theorem State.load_aside (i : Fin 32) (q : Pair) : (s.load i q).aside = s.aside := by
  unfold State.load; try dsimp only
  repeat' split
  all_goals simp
@[simp] theorem State.load_apart (i : Fin 32) (q : Pair) : (s.load i q).apart = s.apart := by
  unfold State.load; try dsimp only
  repeat' split
  all_goals simp
@[simp] theorem State.writeMiss_aside (q : Pair) (m : MissSource) : (s.writeMiss q m).aside = s.aside := by
  unfold State.writeMiss; try dsimp only
  repeat' split
  all_goals simp
@[simp] theorem State.writeMiss_apart (q : Pair) (m : MissSource) : (s.writeMiss q m).apart = s.apart := by
  unfold State.writeMiss; try dsimp only
  repeat' split
  all_goals simp
@[simp] theorem State.resolveBand_aside (b : Nat) (m : MissSource) : (s.resolveBand b m).aside = s.aside := by
  unfold State.resolveBand; try dsimp only
  repeat' split
  all_goals simp
@[simp] theorem State.resolveBand_apart (b : Nat) (m : MissSource) : (s.resolveBand b m).apart = s.apart := by
  unfold State.resolveBand; try dsimp only
  repeat' split
  all_goals simp
@[simp] theorem State.resolveHere_aside (m : MissSource) : (s.resolveHere m).aside = s.aside := by
  unfold State.resolveHere; try dsimp only
  repeat' split
  all_goals simp
@[simp] theorem State.resolveHere_apart (m : MissSource) : (s.resolveHere m).apart = s.apart := by
  unfold State.resolveHere; try dsimp only
  repeat' split
  all_goals simp
@[simp] theorem State.zoomForbidden_aside : (s.zoomForbidden).aside = s.aside := by
  unfold State.zoomForbidden; try dsimp only
  repeat' split
  all_goals simp
@[simp] theorem State.zoomForbidden_apart : (s.zoomForbidden).apart = s.apart := by
  unfold State.zoomForbidden; try dsimp only
  repeat' split
  all_goals simp
@[simp] theorem State.resolveWaiting_aside (b : Nat) (m : MissSource) : (s.resolveWaiting b m).aside = s.aside := by
  unfold State.resolveWaiting; try dsimp only
  repeat' split
  all_goals simp
@[simp] theorem State.resolveWaiting_apart (b : Nat) (m : MissSource) : (s.resolveWaiting b m).apart = s.apart := by
  unfold State.resolveWaiting; try dsimp only
  repeat' split
  all_goals simp
@[simp] theorem State.resolve_aside (m : MissSource) : (s.resolve m).aside = s.aside := by
  unfold State.resolve; try dsimp only
  repeat' split
  all_goals simp
@[simp] theorem State.resolve_apart (m : MissSource) : (s.resolve m).apart = s.apart := by
  unfold State.resolve; try dsimp only
  repeat' split
  all_goals simp
@[simp] theorem State.examine_aside (r : Report) : (s.examine r).aside = s.aside := by
  unfold State.examine; try dsimp only
  repeat' split
  all_goals simp
@[simp] theorem State.examine_apart (r : Report) : (s.examine r).apart = s.apart := by
  unfold State.examine; try dsimp only
  repeat' split
  all_goals simp
@[simp] theorem State.zoomEndWait_aside (e : Ending) : (s.zoomEndWait e).aside = s.aside := by
  unfold State.zoomEndWait; try dsimp only
  repeat' split
  all_goals simp
@[simp] theorem State.zoomEndWait_apart (e : Ending) : (s.zoomEndWait e).apart = s.apart := by
  unfold State.zoomEndWait; try dsimp only
  repeat' split
  all_goals simp
@[simp] theorem State.zoomCross_aside (r : AxisRecord) (b : Nat) : (s.zoomCross r b).aside = s.aside := by
  unfold State.zoomCross; try dsimp only
  repeat' split
  all_goals simp
@[simp] theorem State.zoomCross_apart (r : AxisRecord) (b : Nat) : (s.zoomCross r b).apart = s.apart := by
  unfold State.zoomCross; try dsimp only
  repeat' split
  all_goals simp
@[simp] theorem State.zoomStepOn_aside : (s.zoomStepOn).aside = s.aside := by
  unfold State.zoomStepOn; try dsimp only
  repeat' split
  all_goals simp
@[simp] theorem State.zoomStepOn_apart : (s.zoomStepOn).apart = s.apart := by
  unfold State.zoomStepOn; try dsimp only
  repeat' split
  all_goals simp
@[simp] theorem State.stepAxis_aside (a : AxisId) : (s.stepAxis a).aside = s.aside := by
  unfold State.stepAxis; try dsimp only
  repeat' split
  all_goals simp
@[simp] theorem State.stepAxis_apart (a : AxisId) : (s.stepAxis a).apart = s.apart := by
  unfold State.stepAxis; try dsimp only
  repeat' split
  all_goals simp
@[simp] theorem State.startMove_aside (a : AxisId) : (s.startMove a).aside = s.aside := by
  unfold State.startMove; try dsimp only
  repeat' split
  all_goals simp
@[simp] theorem State.startMove_apart (a : AxisId) : (s.startMove a).apart = s.apart := by
  unfold State.startMove; try dsimp only
  repeat' split
  all_goals simp
@[simp] theorem State.pinsGone_aside : (s.pinsGone).aside = s.aside := by
  unfold State.pinsGone; try dsimp only
  repeat' split
  all_goals simp
@[simp] theorem State.pinsGone_apart : (s.pinsGone).apart = s.apart := by
  unfold State.pinsGone; try dsimp only
  repeat' split
  all_goals simp
@[simp] theorem State.releasePin_aside (h : PinHolder) : (s.releasePin h).aside = s.aside := by
  unfold State.releasePin; try dsimp only
  repeat' split
  all_goals simp
@[simp] theorem State.releasePin_apart (h : PinHolder) : (s.releasePin h).apart = s.apart := by
  unfold State.releasePin; try dsimp only
  repeat' split
  all_goals simp
theorem State.askPin_aside {s t : State} {h : PinHolder} (e : s.askPin h = some t) : t.aside = s.aside := by
  unfold State.askPin at e
  split at e
  · cases e; simp
  · cases e
theorem State.askPin_apart {s t : State} {h : PinHolder} (e : s.askPin h = some t) : t.apart = s.apart := by
  unfold State.askPin at e
  split at e
  · cases e; simp
  · cases e

/-! ### TrackingOps -/

@[simp] theorem State.internalMove_aside (a : AxisId) (n : Nat) (m : Mover) : (s.internalMove a n m).aside = s.aside := by
  unfold State.internalMove; try dsimp only
  repeat' split
  all_goals simp
@[simp] theorem State.internalMove_apart (a : AxisId) (n : Nat) (m : Mover) : (s.internalMove a n m).apart = s.apart := by
  unfold State.internalMove; try dsimp only
  repeat' split
  all_goals simp
@[simp] theorem State.applyOwed_aside : (s.applyOwed).aside = s.aside := by
  unfold State.applyOwed; try dsimp only
  repeat' split
  all_goals simp
@[simp] theorem State.applyOwed_apart : (s.applyOwed).apart = s.apart := by
  unfold State.applyOwed; try dsimp only
  repeat' split
  all_goals simp
@[simp] theorem State.focusHomed_aside : (s.focusHomed).aside = s.aside := by
  unfold State.focusHomed; try dsimp only
  repeat' split
  all_goals simp
@[simp] theorem State.focusHomed_apart : (s.focusHomed).apart = s.apart := by
  unfold State.focusHomed; try dsimp only
  repeat' split
  all_goals simp
@[simp] theorem State.homingDone_aside (a : AxisId) : (s.homingDone a).aside = s.aside := by
  unfold State.homingDone; try dsimp only
  repeat' split
  all_goals simp
@[simp] theorem State.homingDone_apart (a : AxisId) : (s.homingDone a).apart = s.apart := by
  unfold State.homingDone; try dsimp only
  repeat' split
  all_goals simp
@[simp] theorem State.track_aside (l : TrackLoad) : (s.track l).aside = s.aside := by
  unfold State.track; try dsimp only
  repeat' split
  all_goals simp
@[simp] theorem State.track_apart (l : TrackLoad) : (s.track l).apart = s.apart := by
  unfold State.track; try dsimp only
  repeat' split
  all_goals simp

/-! ### ReleaseOps -/

@[simp] theorem State.letSlotGo_aside : (s.letSlotGo).aside = s.aside := by
  unfold State.letSlotGo; try dsimp only
  repeat' split
  all_goals simp
@[simp] theorem State.letSlotGo_apart : (s.letSlotGo).apart = s.apart := by
  unfold State.letSlotGo; try dsimp only
  repeat' split
  all_goals simp
@[simp] theorem State.armSlot_aside (o : ShotOrigin) (b : Nat) (x : Solution) (i : Fin 12) : (s.armSlot o b x i).aside = s.aside := by
  unfold State.armSlot; try dsimp only
  repeat' split
  all_goals simp
@[simp] theorem State.armSlot_apart (o : ShotOrigin) (b : Nat) (x : Solution) (i : Fin 12) : (s.armSlot o b x i).apart = s.apart := by
  unfold State.armSlot; try dsimp only
  repeat' split
  all_goals simp
@[simp] theorem State.flushStab_aside : (s.flushStab).aside = s.aside := by
  unfold State.flushStab; try dsimp only
  repeat' split
  all_goals simp
@[simp] theorem State.flushStab_apart : (s.flushStab).apart = s.apart := by
  unfold State.flushStab; try dsimp only
  repeat' split
  all_goals simp
@[simp] theorem State.startExposure_aside (i : Fin 12) (t : Slot) : (s.startExposure i t).aside = s.aside := by
  unfold State.startExposure; try dsimp only
  repeat' split
  all_goals simp
@[simp] theorem State.startExposure_apart (i : Fin 12) (t : Slot) : (s.startExposure i t).apart = s.apart := by
  unfold State.startExposure; try dsimp only
  repeat' split
  all_goals simp
@[simp] theorem State.tryExposure_aside : (s.tryExposure).aside = s.aside := by
  unfold State.tryExposure; try dsimp only
  repeat' split
  all_goals simp
@[simp] theorem State.tryExposure_apart : (s.tryExposure).apart = s.apart := by
  unfold State.tryExposure; try dsimp only
  repeat' split
  all_goals simp
@[simp] theorem State.irisSettled_aside : (s.irisSettled).aside = s.aside := by
  unfold State.irisSettled; try dsimp only
  repeat' split
  all_goals simp
@[simp] theorem State.irisSettled_apart : (s.irisSettled).apart = s.apart := by
  unfold State.irisSettled; try dsimp only
  repeat' split
  all_goals simp
@[simp] theorem State.cancelArm_aside (i : Fin 12) (r : Option Result) (e : EndReason) : (s.cancelArm i r e).aside = s.aside := by
  unfold State.cancelArm; try dsimp only
  repeat' split
  all_goals simp
@[simp] theorem State.cancelArm_apart (i : Fin 12) (r : Option Result) (e : EndReason) : (s.cancelArm i r e).apart = s.apart := by
  unfold State.cancelArm; try dsimp only
  repeat' split
  all_goals simp
@[simp] theorem State.irisStopped_aside : (s.irisStopped).aside = s.aside := by
  unfold State.irisStopped; try dsimp only
  repeat' split
  all_goals simp
@[simp] theorem State.irisStopped_apart : (s.irisStopped).apart = s.apart := by
  unfold State.irisStopped; try dsimp only
  repeat' split
  all_goals simp


/-! ### Release and notices -/

theorem State.foldl_examine_aside {l : List Report} : (l.foldl State.examine s).aside = s.aside := by
  induction l generalizing s with
  | nil => rfl
  | cons x l ih => rw [List.foldl_cons, ih]; simp

@[simp] theorem State.takeReports_aside : (s.takeReports).aside = s.aside := by
  unfold State.takeReports; rw [State.foldl_examine_aside]; simp
theorem State.foldl_examine_apart {l : List Report} : (l.foldl State.examine s).apart = s.apart := by
  induction l generalizing s with
  | nil => rfl
  | cons x l ih => rw [List.foldl_cons, ih]; simp

@[simp] theorem State.takeReports_apart : (s.takeReports).apart = s.apart := by
  unfold State.takeReports; rw [State.foldl_examine_apart]; simp
theorem State.foldl_track_aside {l : List TrackLoad} : (l.foldl State.track s).aside = s.aside := by
  induction l generalizing s with
  | nil => rfl
  | cons x l ih => rw [List.foldl_cons, ih]; simp

@[simp] theorem State.deliverLoads_aside : (s.deliverLoads).aside = s.aside := by
  unfold State.deliverLoads; rw [State.foldl_track_aside]; simp
theorem State.foldl_track_apart {l : List TrackLoad} : (l.foldl State.track s).apart = s.apart := by
  induction l generalizing s with
  | nil => rfl
  | cons x l ih => rw [List.foldl_cons, ih]; simp

@[simp] theorem State.deliverLoads_apart : (s.deliverLoads).apart = s.apart := by
  unfold State.deliverLoads; rw [State.foldl_track_apart]; simp
@[simp] theorem State.takeHandoffs_aside : (s.takeHandoffs).aside = s.aside := by
  unfold State.takeHandoffs; try dsimp only
  repeat' split
  all_goals simp
@[simp] theorem State.takeHandoffs_apart : (s.takeHandoffs).apart = s.apart := by
  unfold State.takeHandoffs; try dsimp only
  repeat' split
  all_goals simp
@[simp] theorem State.arm_aside (o : ShotOrigin) (b : Nat) : (s.arm o b).1.aside = s.aside := by
  unfold State.arm; try dsimp only
  repeat' split
  all_goals first | (rename_i e _; simp [State.askPin_aside e]; done) | (rename_i e; simp [State.askPin_aside e]; done) | simp
@[simp] theorem State.arm_apart (o : ShotOrigin) (b : Nat) : (s.arm o b).1.apart = s.apart := by
  unfold State.arm; try dsimp only
  repeat' split
  all_goals first | (rename_i e _; simp [State.askPin_apart e]; done) | (rename_i e; simp [State.askPin_apart e]; done) | simp
@[simp] theorem State.armBurst_aside : (s.armBurst).aside = s.aside := by
  unfold State.armBurst; try dsimp only
  repeat' split
  all_goals simp
@[simp] theorem State.armBurst_apart : (s.armBurst).apart = s.apart := by
  unfold State.armBurst; try dsimp only
  repeat' split
  all_goals simp
@[simp] theorem State.fullPress_aside : (s.fullPress).aside = s.aside := by
  unfold State.fullPress; try dsimp only
  repeat' split
  all_goals simp
@[simp] theorem State.fullPress_apart : (s.fullPress).apart = s.apart := by
  unfold State.fullPress; try dsimp only
  repeat' split
  all_goals simp
@[simp] theorem State.slotFreed_aside : (s.slotFreed).aside = s.aside := by
  unfold State.slotFreed; try dsimp only
  repeat' split
  all_goals simp
@[simp] theorem State.slotFreed_apart : (s.slotFreed).apart = s.apart := by
  unfold State.slotFreed; try dsimp only
  repeat' split
  all_goals simp
@[simp] theorem State.sweepOutcomeNotice_aside (o : SweepOutcome) : (s.sweepOutcomeNotice o).aside = s.aside := by
  unfold State.sweepOutcomeNotice; try dsimp only
  repeat' split
  all_goals simp
@[simp] theorem State.sweepOutcomeNotice_apart (o : SweepOutcome) : (s.sweepOutcomeNotice o).apart = s.apart := by
  unfold State.sweepOutcomeNotice; try dsimp only
  repeat' split
  all_goals simp
@[simp] theorem State.lockFilledNotice_aside : (s.lockFilledNotice).aside = s.aside := by
  unfold State.lockFilledNotice; try dsimp only
  repeat' split
  all_goals simp
@[simp] theorem State.lockFilledNotice_apart : (s.lockFilledNotice).apart = s.apart := by
  unfold State.lockFilledNotice; try dsimp only
  repeat' split
  all_goals simp
@[simp] theorem State.takePass_aside (z : Vector ZoneResult 8) : (s.takePass z).aside = s.aside := by
  unfold State.takePass; try dsimp only
  repeat' split
  all_goals simp
@[simp] theorem State.takePass_apart (z : Vector ZoneResult 8) : (s.takePass z).apart = s.apart := by
  unfold State.takePass; try dsimp only
  repeat' split
  all_goals simp
theorem State.foldl_takePass_aside {l : List (Vector ZoneResult 8)} : (l.foldl State.takePass s).aside = s.aside := by
  induction l generalizing s with
  | nil => rfl
  | cons x l ih => rw [List.foldl_cons, ih]; simp

@[simp] theorem State.takeScenes_aside : (s.takeScenes).aside = s.aside := by
  unfold State.takeScenes; rw [State.foldl_takePass_aside]; simp
theorem State.foldl_takePass_apart {l : List (Vector ZoneResult 8)} : (l.foldl State.takePass s).apart = s.apart := by
  induction l generalizing s with
  | nil => rfl
  | cons x l ih => rw [List.foldl_cons, ih]; simp

@[simp] theorem State.takeScenes_apart : (s.takeScenes).apart = s.apart := by
  unfold State.takeScenes; rw [State.foldl_takePass_apart]; simp

/-! ### SweepOps -/

@[simp] theorem State.setSweepRecord_aside (w : SweepRecord) : (s.setSweepRecord w).aside = s.aside := by
  unfold State.setSweepRecord; try dsimp only
  repeat' split
  all_goals simp
@[simp] theorem State.setSweepRecord_apart (w : SweepRecord) : (s.setSweepRecord w).apart = s.apart := by
  unfold State.setSweepRecord; try dsimp only
  repeat' split
  all_goals simp
@[simp] theorem State.closeSweep_aside (o : SweepOutcome) : (s.closeSweep o).aside = s.aside := by
  unfold State.closeSweep; try dsimp only
  repeat' split
  all_goals simp
@[simp] theorem State.closeSweep_apart (o : SweepOutcome) : (s.closeSweep o).apart = s.apart := by
  unfold State.closeSweep; try dsimp only
  repeat' split
  all_goals simp
@[simp] theorem State.endSweep_aside (o : SweepOutcome) : (s.endSweep o).aside = s.aside := by
  unfold State.endSweep; try dsimp only
  repeat' split
  all_goals simp
@[simp] theorem State.endSweep_apart (o : SweepOutcome) : (s.endSweep o).apart = s.apart := by
  unfold State.endSweep; try dsimp only
  repeat' split
  all_goals simp
@[simp] theorem State.nextStop_aside : (s.nextStop).1.aside = s.aside := by
  unfold State.nextStop; try dsimp only
  repeat' split
  all_goals simp
@[simp] theorem State.nextStop_apart : (s.nextStop).1.apart = s.apart := by
  unfold State.nextStop; try dsimp only
  repeat' split
  all_goals simp
@[simp] theorem State.openSweep_aside (o : SweepOrigin) (p : SweepParams) : (s.openSweep o p).aside = s.aside := by
  unfold State.openSweep; try dsimp only
  repeat' split
  all_goals simp
@[simp] theorem State.openSweep_apart (o : SweepOrigin) (p : SweepParams) : (s.openSweep o p).apart = s.apart := by
  unfold State.openSweep; try dsimp only
  repeat' split
  all_goals simp
@[simp] theorem State.beginSweep_aside (o : SweepOrigin) (p : SweepParams) : (s.beginSweep o p).1.aside = s.aside := by
  unfold State.beginSweep; try dsimp only
  repeat' split
  all_goals simp
@[simp] theorem State.beginSweep_apart (o : SweepOrigin) (p : SweepParams) : (s.beginSweep o p).1.apart = s.apart := by
  unfold State.beginSweep; try dsimp only
  repeat' split
  all_goals simp
@[simp] theorem State.sweepAtRest_aside : (s.sweepAtRest).aside = s.aside := by
  unfold State.sweepAtRest; try dsimp only
  repeat' split
  all_goals simp
@[simp] theorem State.sweepAtRest_apart : (s.sweepAtRest).apart = s.apart := by
  unfold State.sweepAtRest; try dsimp only
  repeat' split
  all_goals simp
@[simp] theorem State.judge_aside (n : Nat) : (s.judge n).1.aside = s.aside := by
  unfold State.judge; try dsimp only
  repeat' split
  all_goals simp
@[simp] theorem State.judge_apart (n : Nat) : (s.judge n).1.apart = s.apart := by
  unfold State.judge; try dsimp only
  repeat' split
  all_goals simp
@[simp] theorem State.stopSweep_aside : (s.stopSweep).aside = s.aside := by
  unfold State.stopSweep; try dsimp only
  repeat' split
  all_goals simp
@[simp] theorem State.stopSweep_apart : (s.stopSweep).apart = s.apart := by
  unfold State.stopSweep; try dsimp only
  repeat' split
  all_goals simp
@[simp] theorem State.releaseSweep_aside : (s.releaseSweep).aside = s.aside := by
  unfold State.releaseSweep; try dsimp only
  repeat' split
  all_goals simp
@[simp] theorem State.releaseSweep_apart : (s.releaseSweep).apart = s.apart := by
  unfold State.releaseSweep; try dsimp only
  repeat' split
  all_goals simp

/-! ### MotionOps -/

@[simp] theorem State.settleExpired_aside (a : AxisId) : (s.settleExpired a).aside = s.aside := by
  unfold State.settleExpired; try dsimp only
  repeat' split
  all_goals simp
@[simp] theorem State.settleExpired_apart (a : AxisId) : (s.settleExpired a).apart = s.apart := by
  unfold State.settleExpired; try dsimp only
  repeat' split
  all_goals simp
@[simp] theorem State.settleNow_aside (a : AxisId) : (s.settleNow a).aside = s.aside := by
  unfold State.settleNow; try dsimp only
  repeat' split
  all_goals simp
@[simp] theorem State.settleNow_apart (a : AxisId) : (s.settleNow a).apart = s.apart := by
  unfold State.settleNow; try dsimp only
  repeat' split
  all_goals simp
@[simp] theorem State.settleZero_aside : (s.settleZero).aside = s.aside := by
  unfold State.settleZero; try dsimp only
  repeat' split
  all_goals simp
@[simp] theorem State.settleZero_apart : (s.settleZero).apart = s.apart := by
  unfold State.settleZero; try dsimp only
  repeat' split
  all_goals simp
@[simp] theorem State.clearAxisRest_aside (a : AxisId) : (s.clearAxisRest a).aside = s.aside := by
  unfold State.clearAxisRest; try dsimp only
  repeat' split
  all_goals simp
@[simp] theorem State.clearAxisRest_apart (a : AxisId) : (s.clearAxisRest a).apart = s.apart := by
  unfold State.clearAxisRest; try dsimp only
  repeat' split
  all_goals simp
@[simp] theorem State.decisionPoint_aside (a : AxisId) : (s.decisionPoint a).aside = s.aside := by
  unfold State.decisionPoint; try dsimp only
  repeat' split
  all_goals simp
@[simp] theorem State.decisionPoint_apart (a : AxisId) : (s.decisionPoint a).apart = s.apart := by
  unfold State.decisionPoint; try dsimp only
  repeat' split
  all_goals simp
@[simp] theorem State.homingDecision_aside (a : AxisId) (b : Bool) : (s.homingDecision a b).aside = s.aside := by
  unfold State.homingDecision; try dsimp only
  repeat' split
  all_goals simp
@[simp] theorem State.homingDecision_apart (a : AxisId) (b : Bool) : (s.homingDecision a b).apart = s.apart := by
  unfold State.homingDecision; try dsimp only
  repeat' split
  all_goals simp
@[simp] theorem State.readHome_aside (a : AxisId) (b : Bool) : (s.readHome a b).aside = s.aside := by
  unfold State.readHome; try dsimp only
  repeat' split
  all_goals simp
@[simp] theorem State.readHome_apart (a : AxisId) (b : Bool) : (s.readHome a b).apart = s.apart := by
  unfold State.readHome; try dsimp only
  repeat' split
  all_goals simp
@[simp] theorem State.dropOwed_aside (a : AxisId) : (s.dropOwed a).aside = s.aside := by
  unfold State.dropOwed; try dsimp only
  repeat' split
  all_goals simp
@[simp] theorem State.dropOwed_apart (a : AxisId) : (s.dropOwed a).apart = s.apart := by
  unfold State.dropOwed; try dsimp only
  repeat' split
  all_goals simp
@[simp] theorem State.beginHostMove_aside (a : AxisId) (n : Nat) : (s.beginHostMove a n).aside = s.aside := by
  unfold State.beginHostMove; try dsimp only
  repeat' split
  all_goals simp
@[simp] theorem State.beginHostMove_apart (a : AxisId) (n : Nat) : (s.beginHostMove a n).apart = s.apart := by
  unfold State.beginHostMove; try dsimp only
  repeat' split
  all_goals simp
@[simp] theorem State.waitingMove_aside (n : Nat) : (s.waitingMove n).aside = s.aside := by
  unfold State.waitingMove; try dsimp only
  repeat' split
  all_goals simp
@[simp] theorem State.waitingMove_apart (n : Nat) : (s.waitingMove n).apart = s.apart := by
  unfold State.waitingMove; try dsimp only
  repeat' split
  all_goals simp
@[simp] theorem State.hostMove_aside (a : AxisId) (n : Nat) : (s.hostMove a n).aside = s.aside := by
  unfold State.hostMove; try dsimp only
  repeat' split
  all_goals simp
@[simp] theorem State.hostMove_apart (a : AxisId) (n : Nat) : (s.hostMove a n).apart = s.apart := by
  unfold State.hostMove; try dsimp only
  repeat' split
  all_goals simp
@[simp] theorem State.stopAxis_aside (a : AxisId) : (s.stopAxis a).aside = s.aside := by
  unfold State.stopAxis; try dsimp only
  repeat' split
  all_goals simp
@[simp] theorem State.stopAxis_apart (a : AxisId) : (s.stopAxis a).apart = s.apart := by
  unfold State.stopAxis; try dsimp only
  repeat' split
  all_goals simp
@[simp] theorem State.clearAxis_aside (a : AxisId) : (s.clearAxis a).aside = s.aside := by
  unfold State.clearAxis; try dsimp only
  repeat' split
  all_goals simp
@[simp] theorem State.clearAxis_apart (a : AxisId) : (s.clearAxis a).apart = s.apart := by
  unfold State.clearAxis; try dsimp only
  repeat' split
  all_goals simp
@[simp] theorem State.standbyAxis_aside (a : AxisId) : (s.standbyAxis a).aside = s.aside := by
  unfold State.standbyAxis; try dsimp only
  repeat' split
  all_goals simp
@[simp] theorem State.standbyAxis_apart (a : AxisId) : (s.standbyAxis a).apart = s.apart := by
  unfold State.standbyAxis; try dsimp only
  repeat' split
  all_goals simp
@[simp] theorem State.standbyAxes_aside : (s.standbyAxes).aside = s.aside := by
  unfold State.standbyAxes; try dsimp only
  repeat' split
  all_goals simp
@[simp] theorem State.standbyAxes_apart : (s.standbyAxes).apart = s.apart := by
  unfold State.standbyAxes; try dsimp only
  repeat' split
  all_goals simp
@[simp] theorem State.halfPressLock_aside : (s.halfPressLock).aside = s.aside := by
  unfold State.halfPressLock; try dsimp only
  repeat' split
  all_goals simp
@[simp] theorem State.halfPressLock_apart : (s.halfPressLock).apart = s.apart := by
  unfold State.halfPressLock; try dsimp only
  repeat' split
  all_goals simp
@[simp] theorem State.halfPressSweep_aside : (s.halfPressSweep).aside = s.aside := by
  unfold State.halfPressSweep; try dsimp only
  repeat' split
  all_goals simp
@[simp] theorem State.halfPressSweep_apart : (s.halfPressSweep).apart = s.apart := by
  unfold State.halfPressSweep; try dsimp only
  repeat' split
  all_goals simp
@[simp] theorem State.halfPress_aside : (s.halfPress).aside = s.aside := by
  unfold State.halfPress; try dsimp only
  repeat' split
  all_goals simp
@[simp] theorem State.fullLetGo_aside : (s.fullLetGo).aside = s.aside := by
  unfold State.fullLetGo; try dsimp only
  repeat' split
  all_goals simp
@[simp] theorem State.fullLetGo_apart : (s.fullLetGo).apart = s.apart := by
  unfold State.fullLetGo; try dsimp only
  repeat' split
  all_goals simp
@[simp] theorem State.halfLetGo_aside : (s.halfLetGo).aside = s.aside := by
  unfold State.halfLetGo; try dsimp only
  repeat' split
  all_goals simp
@[simp] theorem State.halfLetGo_apart : (s.halfLetGo).apart = s.apart := by
  unfold State.halfLetGo; try dsimp only
  repeat' split
  all_goals simp
@[simp] theorem State.standbyRelease_aside : (s.standbyRelease).aside = s.aside := by
  unfold State.standbyRelease; try dsimp only
  repeat' split
  all_goals simp
@[simp] theorem State.standbyRelease_apart : (s.standbyRelease).apart = s.apart := by
  unfold State.standbyRelease; try dsimp only
  repeat' split
  all_goals simp
@[simp] theorem State.finishEntry_aside : (s.finishEntry).aside = s.aside := by
  unfold State.finishEntry; try dsimp only
  repeat' split
  all_goals simp
@[simp] theorem State.wakeUp_aside : (s.wakeUp).aside = s.aside := by
  unfold State.wakeUp; try dsimp only
  repeat' split
  all_goals simp

/-! ### Families -/

@[simp] theorem State.takeCode_aside (c : Nat) : (s.takeCode c).aside = s.aside := by
  unfold State.takeCode; try dsimp only
  repeat' split
  all_goals simp
@[simp] theorem State.takeCode_apart (c : Nat) : (s.takeCode c).apart = s.apart := by
  unfold State.takeCode; try dsimp only
  repeat' split
  all_goals simp
@[simp] theorem State.shotIfDue_aside : (s.shotIfDue).aside = s.aside := by
  unfold State.shotIfDue; try dsimp only
  repeat' split
  all_goals simp
@[simp] theorem State.shotIfDue_apart : (s.shotIfDue).apart = s.apart := by
  unfold State.shotIfDue; try dsimp only
  repeat' split
  all_goals simp
@[simp] theorem State.reportHoming_aside (a : AxisId) : (s.reportHoming a).aside = s.aside := by
  unfold State.reportHoming; try dsimp only
  repeat' split
  all_goals simp
@[simp] theorem State.reportHoming_apart (a : AxisId) : (s.reportHoming a).apart = s.apart := by
  unfold State.reportHoming; try dsimp only
  repeat' split
  all_goals simp
@[simp] theorem State.beginHoming_aside (a : AxisId) (b : Bool) : (s.beginHoming a b).aside = s.aside := by
  unfold State.beginHoming; try dsimp only
  repeat' split
  all_goals simp
@[simp] theorem State.beginHoming_apart (a : AxisId) (b : Bool) : (s.beginHoming a b).apart = s.apart := by
  unfold State.beginHoming; try dsimp only
  repeat' split
  all_goals simp
@[simp] theorem State.stopMove_aside (a : AxisId) : (s.stopMove a).aside = s.aside := by
  unfold State.stopMove; try dsimp only
  repeat' split
  all_goals simp
@[simp] theorem State.stopMove_apart (a : AxisId) : (s.stopMove a).apart = s.apart := by
  unfold State.stopMove; try dsimp only
  repeat' split
  all_goals simp
@[simp] theorem State.decideAxis_aside (a : AxisId) (b : Bool) : (s.decideAxis a b).aside = s.aside := by
  unfold State.decideAxis; try dsimp only
  repeat' split
  all_goals simp
@[simp] theorem State.decideAxis_apart (a : AxisId) (b : Bool) : (s.decideAxis a b).apart = s.apart := by
  unfold State.decideAxis; try dsimp only
  repeat' split
  all_goals simp
@[simp] theorem State.pressHalf_aside : (s.pressHalf).aside = s.aside := by
  unfold State.pressHalf; try dsimp only
  repeat' split
  all_goals simp
@[simp] theorem State.pressBoth_aside : (s.pressBoth).aside = s.aside := by
  unfold State.pressBoth; try dsimp only
  repeat' split
  all_goals simp
@[simp] theorem State.positionChanged_aside (b a : SwitchPosition) : (s.positionChanged b a).aside = s.aside := by
  unfold State.positionChanged; try dsimp only
  repeat' split
  all_goals simp
@[simp] theorem State.takeSteady_aside : (s.takeSteady).aside = s.aside := by
  unfold State.takeSteady; try dsimp only
  repeat' split
  all_goals simp
@[simp] theorem State.takeSteady_apart : (s.takeSteady).apart = s.apart := by
  unfold State.takeSteady; try dsimp only
  repeat' split
  all_goals simp
@[simp] theorem State.endExposure_aside (i : Fin 12) : (s.endExposure i).aside = s.aside := by
  unfold State.endExposure; try dsimp only
  repeat' split
  all_goals simp
@[simp] theorem State.endExposure_apart (i : Fin 12) : (s.endExposure i).apart = s.apart := by
  unfold State.endExposure; try dsimp only
  repeat' split
  all_goals simp
@[simp] theorem State.discardActive_aside (i : Fin 12) : (s.discardActive i).aside = s.aside := by
  unfold State.discardActive; try dsimp only
  repeat' split
  all_goals simp
@[simp] theorem State.discardActive_apart (i : Fin 12) : (s.discardActive i).apart = s.apart := by
  unfold State.discardActive; try dsimp only
  repeat' split
  all_goals simp
@[simp] theorem State.discard_aside (i : Fin 12) : (s.discard i).aside = s.aside := by
  unfold State.discard; try dsimp only
  repeat' split
  all_goals simp
@[simp] theorem State.discard_apart (i : Fin 12) : (s.discard i).apart = s.apart := by
  unfold State.discard; try dsimp only
  repeat' split
  all_goals simp
@[simp] theorem State.clearRecords_aside : (s.clearRecords).aside = s.aside := by
  unfold State.clearRecords; try dsimp only
  repeat' split
  all_goals simp
@[simp] theorem State.clearResolver_aside : (s.clearResolver).aside = s.aside := by
  unfold State.clearResolver; try dsimp only
  repeat' split
  all_goals simp
@[simp] theorem State.clearResolver_apart : (s.clearResolver).apart = s.apart := by
  unfold State.clearResolver; try dsimp only
  repeat' split
  all_goals simp
@[simp] theorem State.clearAxes_aside : (s.clearAxes).aside = s.aside := by
  unfold State.clearAxes; try dsimp only
  repeat' split
  all_goals simp
@[simp] theorem State.clearAxes_apart : (s.clearAxes).apart = s.apart := by
  unfold State.clearAxes; try dsimp only
  repeat' split
  all_goals simp
@[simp] theorem State.clearParts_aside (a b c : Bool) : (s.clearParts a b c).aside = s.aside := by
  unfold State.clearParts; try dsimp only
  repeat' split
  all_goals simp
@[simp] theorem State.standbyStab_aside : (s.standbyStab).aside = s.aside := by
  unfold State.standbyStab; try dsimp only
  repeat' split
  all_goals simp
@[simp] theorem State.standbyStab_apart : (s.standbyStab).apart = s.apart := by
  unfold State.standbyStab; try dsimp only
  repeat' split
  all_goals simp

/-! ### What resolutions, pins and tracking leave to the other blocks -/

/-- The sweep, the exposure, the Stabilizer and the release. -/
def State.others (s : State) : SweepUnit × ExposureUnit × Stabilizer × Release := (s.sweep, s.exposure, s.stab, s.release)

theorem State.sweep_of_others {s t : State} (h : s.others = t.others) : s.sweep = t.sweep := congrArg (·.1) h
theorem State.exposure_of_others {s t : State} (h : s.others = t.others) : s.exposure = t.exposure := congrArg (·.2.1) h
theorem State.stab_of_others {s t : State} (h : s.others = t.others) : s.stab = t.stab := congrArg (·.2.2.1) h
theorem State.release_of_others {s t : State} (h : s.others = t.others) : s.release = t.release := congrArg (·.2.2.2) h

@[simp] theorem State.setResolver_others (x : Resolver) : (s.setResolver x).others = s.others := rfl
@[simp] theorem State.setTravel_others (x : ZoomTravel) : (s.setTravel x).others = s.others := rfl
@[simp] theorem State.setHandoffs_others (x : Handoffs) : (s.setHandoffs x).others = s.others := rfl
@[simp] theorem State.setPins_others (x : Pins) : (s.setPins x).others = s.others := rfl
@[simp] theorem State.setAxis_others (a : AxisId) (r : AxisRecord) : (s.setAxis a r).others = s.others := by cases a <;> rfl
@[simp] theorem State.unresolve_others : (s.unresolve).others = s.others := by
  unfold State.unresolve; try dsimp only
  repeat' split
  all_goals simp
@[simp] theorem State.load_others (i : Fin 32) (q : Pair) : (s.load i q).others = s.others := by
  unfold State.load; try dsimp only
  repeat' split
  all_goals simp
@[simp] theorem State.writeMiss_others (q : Pair) (m : MissSource) : (s.writeMiss q m).others = s.others := by
  unfold State.writeMiss; try dsimp only
  repeat' split
  all_goals simp
@[simp] theorem State.resolveBand_others (b : Nat) (m : MissSource) : (s.resolveBand b m).others = s.others := by
  unfold State.resolveBand; try dsimp only
  repeat' split
  all_goals simp
@[simp] theorem State.resolveHere_others (m : MissSource) : (s.resolveHere m).others = s.others := by
  unfold State.resolveHere; try dsimp only
  repeat' split
  all_goals simp
@[simp] theorem State.zoomForbidden_others : (s.zoomForbidden).others = s.others := by
  unfold State.zoomForbidden; try dsimp only
  repeat' split
  all_goals simp
@[simp] theorem State.resolveWaiting_others (b : Nat) (m : MissSource) : (s.resolveWaiting b m).others = s.others := by
  unfold State.resolveWaiting; try dsimp only
  repeat' split
  all_goals simp
@[simp] theorem State.resolve_others (m : MissSource) : (s.resolve m).others = s.others := by
  unfold State.resolve; try dsimp only
  repeat' split
  all_goals simp
@[simp] theorem State.examine_others (r : Report) : (s.examine r).others = s.others := by
  unfold State.examine; try dsimp only
  repeat' split
  all_goals simp
@[simp] theorem State.zoomEndWait_others (e : Ending) : (s.zoomEndWait e).others = s.others := by
  unfold State.zoomEndWait; try dsimp only
  repeat' split
  all_goals simp
@[simp] theorem State.zoomCross_others (r : AxisRecord) (b : Nat) : (s.zoomCross r b).others = s.others := by
  unfold State.zoomCross; try dsimp only
  repeat' split
  all_goals simp
@[simp] theorem State.zoomStepOn_others : (s.zoomStepOn).others = s.others := by
  unfold State.zoomStepOn; try dsimp only
  repeat' split
  all_goals simp
@[simp] theorem State.stepAxis_others (a : AxisId) : (s.stepAxis a).others = s.others := by
  unfold State.stepAxis; try dsimp only
  repeat' split
  all_goals simp
@[simp] theorem State.startMove_others (a : AxisId) : (s.startMove a).others = s.others := by
  unfold State.startMove; try dsimp only
  repeat' split
  all_goals simp
@[simp] theorem State.pinsGone_others : (s.pinsGone).others = s.others := by
  unfold State.pinsGone; try dsimp only
  repeat' split
  all_goals simp
@[simp] theorem State.releasePin_others (h : PinHolder) : (s.releasePin h).others = s.others := by
  unfold State.releasePin; try dsimp only
  repeat' split
  all_goals simp
@[simp] theorem State.internalMove_others (a : AxisId) (n : Nat) (m : Mover) : (s.internalMove a n m).others = s.others := by
  unfold State.internalMove; try dsimp only
  repeat' split
  all_goals simp
@[simp] theorem State.applyOwed_others : (s.applyOwed).others = s.others := by
  unfold State.applyOwed; try dsimp only
  repeat' split
  all_goals simp
@[simp] theorem State.focusHomed_others : (s.focusHomed).others = s.others := by
  unfold State.focusHomed; try dsimp only
  repeat' split
  all_goals simp
@[simp] theorem State.homingDone_others (a : AxisId) : (s.homingDone a).others = s.others := by
  unfold State.homingDone; try dsimp only
  repeat' split
  all_goals simp
@[simp] theorem State.track_others (l : TrackLoad) : (s.track l).others = s.others := by
  unfold State.track; try dsimp only
  repeat' split
  all_goals simp
@[simp] theorem State.letSlotGo_others : (s.letSlotGo).others = s.others := by
  unfold State.letSlotGo; try dsimp only
  repeat' split
  all_goals simp
theorem State.foldl_examine_others {l : List Report} : (l.foldl State.examine s).others = s.others := by
  induction l generalizing s with
  | nil => rfl
  | cons x l ih => rw [List.foldl_cons, ih]; simp

@[simp] theorem State.takeReports_others : (s.takeReports).others = s.others := by
  unfold State.takeReports; rw [State.foldl_examine_others]; simp
@[simp] theorem State.drain_others (n : Nat) : (s.drain n).others = s.others := by
  induction n generalizing s with
  | zero => rfl
  | succ n ih =>
    unfold State.drain
    split
    · rfl
    · rw [ih, State.examine_others]; rfl

@[simp] theorem State.drained_others : s.drained.others = s.others := by
  unfold State.drained; rw [State.drain_others, State.takeReports_others]
theorem State.foldl_track_others {l : List TrackLoad} : (l.foldl State.track s).others = s.others := by
  induction l generalizing s with
  | nil => rfl
  | cons x l ih => rw [List.foldl_cons, ih]; simp

@[simp] theorem State.deliverLoads_others : (s.deliverLoads).others = s.others := by
  unfold State.deliverLoads; rw [State.foldl_track_others]; simp

end Sys2Proof.Machine
end

