-- ==== Sys2Proof/Laws/Frame.lean ====
section
/-! SUPPORT. Frames on the wire (R175): sums of bytes, the judgement of a sound frame, and the codes. -/

set_option linter.all false

namespace Sys2Proof.Machine

/-- The sum of a frame, as a number modulo 256. -/
theorem frameSum_toNat (f : Bytes) : (f.map (fun b => b.toNat)).sum % 256 = (frameSum f).toNat := by
  induction f with
  | nil => rfl
  | cons b f ih =>
    simp only [List.map_cons, List.sum_cons, frameSum, List.foldr_cons, BitVec.toNat_add]
    have : (List.foldr (fun x1 x2 => x1 + x2) 0#8 f).toNat = (List.map (fun b => b.toNat) f).sum % 256 := by
      rw [ih]; rfl
    rw [this]; omega

/-- Sums add up. -/
theorem frameSum_append (f g : Bytes) : frameSum (f ++ g) = frameSum f + frameSum g := by
  induction f with
  | nil => simp [frameSum]
  | cons b f ih =>
    simp only [frameSum, List.cons_append, List.foldr_cons] at *
    rw [ih]; ac_rfl

/-- A check byte makes a frame sum to 0. -/
theorem frameSum_check (f : Bytes) : frameSum (f ++ [checkByte f]) = 0#8 := by
  rw [frameSum_append]
  simp only [frameSum, checkByte, List.foldr_cons, List.foldr_nil, BitVec.add_zero]
  generalize List.foldr (fun x1 x2 => x1 + x2) 0#8 f = x
  bv_omega

/-- The codes that name a request are those of the table of R175. -/
theorem requestOfCode_isSome (code : Nat) (p : Bytes) (b : Bool) : (requestOfCode code p b).isSome = true ↔ code ∈ requestCodes := by
  by_cases h : code < 256
  · unfold requestOfCode
    split <;> simp_all [requestCodes, List.range']
  · constructor
    · intro hh; unfold requestOfCode at hh; split at hh <;> simp_all
    · intro hh; exfalso; apply h; simp [requestCodes, List.range'] at hh; omega

/-- A frame that carries up to 60 parameter bytes is judged sound, with its code and its parameters. -/
theorem judgeFrame_requestFrame (code : Nat) (p : Bytes) (hc : code < 256) (hp : p.length ≤ 60) :
    judgeFrame (requestFrame code p) = .sound code p := by
  unfold judgeFrame requestFrame
  simp only [List.cons_append]
  have e : (BitVec.ofNat 8 p.length).toNat = p.length := by simp; omega
  rw [e]
  have l : (BitVec.ofNat 8 code :: BitVec.ofNat 8 p.length ::
      (p ++ [checkByte (BitVec.ofNat 8 code :: BitVec.ofNat 8 p.length :: p)])).length = p.length + 3 := by simp
  rw [l]
  have : frameSum (BitVec.ofNat 8 code :: BitVec.ofNat 8 p.length ::
      (p ++ [checkByte (BitVec.ofNat 8 code :: BitVec.ofNat 8 p.length :: p)])) = 0#8 :=
    frameSum_check (BitVec.ofNat 8 code :: BitVec.ofNat 8 p.length :: p)
  rw [if_neg (by omega), if_neg (by simp [this])]
  simp
  omega

/-- A request without parameters takes no byte. -/
theorem noParams_none (p : Bytes) (h : p.length ≠ 0) : noParams p = none := by
  unfold noParams when; cases p <;> simp_all

/-- A request is the one that its code names. -/
theorem requestOfCode_of_request (i : Instr) (code : Nat) (p : Bytes) (h : i.request? = some (code, p)) :
    ∃ b, requestOfCode code p b = some i := by
  cases i <;> simp only [Instr.request?, Option.some.injEq, Prod.mk.injEq, reduceCtorEq] at h <;> obtain ⟨rfl, rfl⟩ := h
  case axisHome p b => exact ⟨b, rfl⟩
  all_goals exact ⟨false, rfl⟩

end Sys2Proof.Machine
end

