-- ==== Sys2Proof/Laws/Request.lean ====
section
/-! SUPPORT. What a request can do: `request`, `withParams` and `dropFrame` say it once, and no later proof unfolds them. -/

namespace Sys2Proof.Machine

variable {b : Bool} {owner : State → State × Answer} {s t : State}

/-- A request that the link takes is carried out by its owner, whose answer the link then waits to place. -/
theorem request_taken (hl : s.link = .free) (hs : s.standby = false ∨ b = true) :
    request b owner s = .next ((owner s).1.setLink (.working (owner s).2 false)) := by
  unfold request
  rw [hl]
  rcases hs with h | h <;> simp [h]

/-- A request that standby turns away. -/
theorem request_standby (hl : s.link = .free) (hs : s.standby = true) (hb : b = false) :
    request b owner s = .next (s.setLink (.answering (plain .standby) false)) := by
  unfold request
  simp [hl, hs, hb]

/-- A request that ends while the link is not FREE. -/
theorem request_dropped (hl : s.link ≠ .free) : request b owner s = .next (dropFrame s) := by
  unfold request
  split
  · contradiction
  · rfl

/-- Whatever a request does, it is one of three things. -/
theorem request_cases (h : request b owner s = .next t) :
    t = s.setLink (.answering (plain .standby) false) ∨
      t = (owner s).1.setLink (.working (owner s).2 false) ∨ t = dropFrame s := by
  unfold request at h
  split at h
  · split at h <;> cases h
    · exact .inl rfl
    · exact .inr (.inl rfl)
  · cases h; exact .inr (.inr rfl)

/-- A request never stops the part. -/
theorem request_next : ∃ t, request b owner s = .next t := by
  unfold request
  split
  · split <;> exact ⟨_, rfl⟩
  · exact ⟨_, rfl⟩

/-- A dropped frame touches the link alone. -/
theorem dropFrame_eq (s : State) : ∃ l, dropFrame s = s.setLink l := by
  unfold dropFrame
  split
  · exact ⟨s.link, rfl⟩
  · exact ⟨_, rfl⟩
  · exact ⟨_, rfl⟩

/-- A property of the state that does not look at the link is kept by a request if its owner keeps it. -/
theorem request_keeps {P : State → Prop} (link : ∀ u l, P u → P (u.setLink l)) (hs : P s)
    (ho : P (owner s).1) (h : request b owner s = .next t) : P t := by
  rcases request_cases h with rfl | rfl | rfl
  · exact link _ _ hs
  · exact link _ _ ho
  · obtain ⟨l, e⟩ := dropFrame_eq s
    rw [e]
    exact link _ _ hs

theorem withParams_some {α : Type} {read : Bytes → Option α} {p : Bytes} {o : α → State → State × Answer} {x : α}
    (h : read p = some x) : withParams read p o s = o x s := by
  unfold withParams
  rw [h]

theorem withParams_none {α : Type} {read : Bytes → Option α} {p : Bytes} {o : α → State → State × Answer}
    (h : read p = none) : withParams read p o s = (s, plain .badParameter) := by
  unfold withParams
  rw [h]

/-- A property is kept by a request's owner if it is kept for every reading of the parameters. -/
theorem withParams_keeps {α : Type} {read : Bytes → Option α} {p : Bytes} {o : α → State → State × Answer}
    {P : State → Prop} (hs : P s) (ho : ∀ x, P (o x s).1) : P (withParams read p o s).1 := by
  unfold withParams
  split
  · exact hs
  · exact ho _

end Sys2Proof.Machine
end

