-- ==== Sys2Proof/Laws/Settle.lean ====
section
/-! SUPPORT. When no settle of 0 is due: the operations that keep it so, and with it the end of an event (R45; log 11).
Beside it, what a resolution outside a wait comes to, and how a request with sound parameters is answered. -/

namespace Sys2Proof.Machine

variable {s : State}

/-! ### Requests -/

theorem finParam_byte {n : Nat} (i : Fin n) (hn : n ≤ 256) : finParam n [BitVec.ofNat 8 i.val] = some i := by
  unfold finParam fin?
  have h := i.isLt
  have : (BitVec.ofNat 8 i.val).toNat = i.val := by simp; omega
  simp [this]

/-- A request that arrives while the part is ready is taken, whichever it is. -/
theorem request_ready {b : Bool} {owner : State → State × Answer} (h : s.ready) :
    request b owner s = .next ((owner s).1.answer (owner s).2) := request_taken h.1 (.inl h.2)

/-! ### No settle of 0 -/

theorem State.settleNow_id {a : AxisId} (h : (s.axis a).settleTimer ≠ some 0) : s.settleNow a = s := by
  unfold State.settleNow
  rw [if_neg (by simp [h])]

/-- With no settle of 0 the event ends as it is. -/
theorem State.settleZero_id (h : s.noZeroSettle) : s.settleZero = s := by
  unfold State.settleZero
  rw [State.settleNow_id (h .zoom), State.settleNow_id (h .focus), State.settleNow_id (h .iris)]

theorem State.noZero_of_axes {t : State} (e : ∀ a, t.axis a = s.axis a) (h : s.noZeroSettle) : t.noZeroSettle :=
  fun a => by rw [e a]; exact h a

theorem State.setAxis_noZero {a : AxisId} {r : AxisRecord} (h : s.noZeroSettle) (hr : r.settleTimer ≠ some 0) :
    (s.setAxis a r).noZeroSettle := by
  intro b
  have hz := h .zoom; have hf := h .focus; have hi := h .iris
  cases a <;> cases b <;> first | exact hr | exact hz | exact hf | exact hi

theorem State.setAxis_setAxis {a : AxisId} {r t : AxisRecord} : (s.setAxis a r).setAxis a t = s.setAxis a t := by
  cases a <;> rfl

theorem State.setAxis_other {a b : AxisId} {r : AxisRecord} (h : b ≠ a) : (s.setAxis a r).axis b = s.axis b := by
  cases a <;> cases b <;> first | rfl | exact absurd rfl h

/-! ### Resolutions outside a wait -/

theorem State.unresolve_eq (s : State) : s.unresolve = { s with
    resolver := { s.resolver with record := { s.resolver.record with resolved := false } }
    handoffs := { s.handoffs with
      stab := s.handoffs.stab ++ (if s.resolver.record.resolved then [.unresolved] else []) } } := by
  unfold State.unresolve
  split
  · rfl
  · rename_i h
    have : s.resolver.record.resolved = false := by simpa using h
    rw [List.append_nil, ← this]

theorem State.writeMiss_eq (s : State) (q : Pair) (m : MissSource) : s.writeMiss q m = { s with
    resolver := { s.resolver with
      record := { s.resolver.record with resolved := false }, miss := some ⟨q.context, q.band, m⟩, missUnread := true }
    handoffs := { s.handoffs with
      stab := s.handoffs.stab ++ (if s.resolver.record.resolved then [.unresolved] else []) } } := by
  unfold State.writeMiss
  rw [State.unresolve_eq]
  rfl

theorem State.resolve_here {m : MissSource} (hb : s.standby = false) (hp : s.resolver.pinned = false)
    (hz : s.zoom.state ≠ .waitMap) : s.resolve m = s.resolveHere m := by
  unfold State.resolve
  simp [hp, hz, hb]

theorem State.load_axis {i : Fin 32} {q : Pair} (a : AxisId) : (s.load i q).axis a = s.axis a := by cases a <;> rfl

theorem State.writeMiss_axis {q : Pair} {m : MissSource} (a : AxisId) : (s.writeMiss q m).axis a = s.axis a := by
  rw [State.writeMiss_eq]; cases a <;> rfl

theorem State.resolveHere_axis {m : MissSource} (a : AxisId) : (s.resolveHere m).axis a = s.axis a := by
  unfold State.resolveHere State.resolveBand State.writeMiss State.unresolve State.load; dsimp only
  cases a <;> (repeat' split) <;> rfl

theorem State.resolve_axis {m : MissSource} (hz : s.zoom.state ≠ .waitMap) (a : AxisId) :
    (s.resolve m).axis a = s.axis a := by
  unfold State.resolve
  split
  · cases a <;> rfl
  · split
    · rfl
    · first
      | rw [if_neg hz, State.resolveHere_axis]
      | exact State.resolveHere_axis a

theorem State.resolve_noZero {m : MissSource} (hz : s.zoom.state ≠ .waitMap) (h : s.noZeroSettle) :
    (s.resolve m).noZeroSettle :=
  State.noZero_of_axes (fun a => State.resolve_axis hz a) h

/-! ### Steps, moves and tracking -/

theorem AxisRecord.stepOn_settleTimer (r : AxisRecord) : r.stepOn.settleTimer = r.settleTimer := by
  unfold AxisRecord.stepOn AxisRecord.reversed AxisRecord.backlashStep AxisRecord.countedStep AxisRecord.stepped
  dsimp only
  (repeat' split) <;> rfl

theorem AxisRecord.reversed_settleTimer (r : AxisRecord) : r.reversed.settleTimer = r.settleTimer := by
  unfold AxisRecord.reversed
  split <;> rfl

theorem AxisRecord.reversed_profile (r : AxisRecord) : r.reversed.profile = r.profile := by
  unfold AxisRecord.reversed
  split <;> rfl

theorem State.stepAxis_noZero {a : AxisId} (h : s.noZeroSettle) (hp : (s.axis a).profile.settle ≠ 0) :
    (s.stepAxis a).noZeroSettle := by
  cases a
  case focus => exact State.setAxis_noZero h (by rw [AxisRecord.stepOn_settleTimer]; exact h .focus)
  case iris => exact State.setAxis_noZero h (by rw [AxisRecord.stepOn_settleTimer]; exact h .iris)
  have hr : s.zoom.reversed.settleTimer ≠ some 0 := by rw [AxisRecord.reversed_settleTimer]; exact h .zoom
  have hq : s.zoom.reversed.profile.settle ≠ 0 := by rw [AxisRecord.reversed_profile]; exact hp
  show s.zoomStepOn.noZeroSettle
  unfold State.zoomStepOn State.zoomCross
  dsimp only
  split
  · exact State.setAxis_noZero h hr
  · split
    · exact State.setAxis_noZero h hr
    · split
      · exact State.setAxis_noZero (State.noZero_of_axes (fun a => State.load_axis a) h) hr
      · refine State.setAxis_noZero (State.setAxis_noZero h hr) ?_
        show some s.zoom.reversed.profile.settle ≠ some 0
        simpa using hq
      · refine State.noZero_of_axes (fun a => by cases a <;> rfl)
          (State.setAxis_noZero (r := { s.zoom.reversed with
            state := .waitMap, stepTimer := none, wakeTimer := none, backlashRemaining := 0 })
            (State.noZero_of_axes (fun a => State.writeMiss_axis a) h) hr)

theorem State.startMove_noZero {a : AxisId} (h : s.noZeroSettle) (hp : (s.axis a).profile.settle ≠ 0) :
    (s.startMove a).noZeroSettle := by
  unfold State.startMove
  dsimp only
  split
  · refine State.setAxis_noZero h ?_
    show some (s.axis a).profile.settle ≠ some 0
    simpa using hp
  · split
    · exact State.stepAxis_noZero h hp
    · exact State.setAxis_noZero h (h a)

theorem State.internalMove_noZero {a : AxisId} {n : Nat} {m : Mover} (h : s.noZeroSettle)
    (hp : (s.axis a).profile.settle ≠ 0) : (s.internalMove a n m).noZeroSettle := by
  unfold State.internalMove
  refine State.setAxis_noZero h ?_
  unfold AxisRecord.internal
  split
  · unfold AxisRecord.startPlain
    split
    · show some (s.axis a).profile.settle ≠ some 0
      simpa using hp
    · split
      · rw [AxisRecord.stepOn_settleTimer]; simp [AxisRecord.begin]
      · simp [AxisRecord.begin, AxisRecord.wake]
  · unfold AxisRecord.startPlain
    split
    · show some (s.axis a).profile.settle ≠ some 0
      simpa using hp
    · split
      · rw [AxisRecord.stepOn_settleTimer]; simp [AxisRecord.begin]
      · simp [AxisRecord.begin, AxisRecord.wake]
  all_goals exact h a

/-- A move to another place than the position of an axis that rests or settles starts no settle. -/
theorem AxisRecord.internal_noZero {r : AxisRecord} {n : Nat} {m : Mover} (h : r.settleTimer ≠ some 0)
    (hn : r.state = .idle ∨ r.state = .settling → r.position ≠ some n) : (r.internal n m).settleTimer ≠ some 0 := by
  unfold AxisRecord.internal
  split
  · rename_i hs
    have := hn (.inl hs)
    unfold AxisRecord.startPlain
    rw [if_neg (by simpa [AxisRecord.begin] using fun e => this e.symm)]
    split
    · rw [AxisRecord.stepOn_settleTimer]; simp [AxisRecord.begin]
    · simp [AxisRecord.begin, AxisRecord.wake]
  · rename_i hs
    have := hn (.inr hs)
    unfold AxisRecord.startPlain
    rw [if_neg (by simpa [AxisRecord.begin] using fun e => this e.symm)]
    split
    · rw [AxisRecord.stepOn_settleTimer]; simp [AxisRecord.begin]
    · simp [AxisRecord.begin, AxisRecord.wake]
  all_goals exact h

theorem State.applyOwed_noZero (h : s.noZeroSettle) : s.applyOwed.noZeroSettle := by
  unfold State.applyOwed
  split
  · dsimp only
    split
    · exact State.noZero_of_axes (fun a => by cases a <;> rfl) h
    · rename_i hne
      refine State.setAxis_noZero (State.noZero_of_axes (fun a => by cases a <;> rfl) h) ?_
      refine AxisRecord.internal_noZero (h .focus) fun _ => ?_
      show s.focus.position ≠ _
      intro e
      exact hne (by simpa using (congrArg (fun x => x.getD 0) e).symm)
  · exact h

theorem State.track_noZero {l : TrackLoad} (h : s.noZeroSettle) (hp : s.focus.profile.settle ≠ 0) :
    (s.track l).noZeroSettle := by
  unfold State.track
  dsimp only
  split
  · exact h
  · split
    · exact State.noZero_of_axes (fun a => by cases a <;> rfl) h
    · split
      · exact State.noZero_of_axes (fun a => by cases a <;> rfl) h
      · exact State.internalMove_noZero (State.noZero_of_axes (fun a => by cases a <;> rfl) h) hp

end Sys2Proof.Machine
end

