-- ==== Sys2Proof/Laws/Moves.lean ====
section
/-! SUPPORT. The parts of a move written out as record updates (03), and the search for the next stop of a sweep (05). -/

set_option linter.all false

namespace Sys2Proof.Machine

/-- The states at rest, as a list. -/
theorem AxisState.resting_iff {x : AxisState} : x.resting = true ↔ x ∈ [AxisState.unhomed, .idle, .fault] := by
  cases x <;> simp [AxisState.resting]

/-- An expiry that brings an axis to its decision point, as one decision. -/
theorem exec_of_decisionDue {c a sensor} {s : State} {r} (hd : s.decisionDue c a sensor r) :
    exec c s = .next ((s.setAxis a r).decideAxis a sensor).settleZero := by
  rcases hd with ⟨rfl, h, rfl⟩ | ⟨rfl, h, rfl⟩
  · show execStepIntervalExpiry _ _ _ = _
    unfold execStepIntervalExpiry
    split
    · contradiction
    · rfl
  · show execWakeTimerExpiry _ _ _ = _
    unfold execWakeTimerExpiry
    split
    · contradiction
    · rfl

/-- What stopping the timer leaves alone. -/
theorem decisionDue_fields {c a sensor} {s : State} {r} (hd : s.decisionDue c a sensor r) :
    r.state = (s.axis a).state ∧ r.settleTimer = (s.axis a).settleTimer ∧ r.profile = (s.axis a).profile := by
  rcases hd with ⟨rfl, h, rfl⟩ | ⟨rfl, h, rfl⟩ <;> exact ⟨rfl, rfl, rfl⟩

/-- The hold-release timer as an axis comes to rest. -/
theorem AxisRecord.startHold_eq (r : AxisRecord) : r.startHold = { r with holdTimer := r.holdAtRest } := by
  unfold AxisRecord.startHold AxisRecord.holdAtRest
  split <;> rfl

/-- A move that may be made is not refused (R54). -/
theorem State.moveRefusal_none {a n} {s : State} (h : s.mayMove a n) : s.moveRefusal a n = none := by
  obtain ⟨h1, h2, h3, h4, h5, h6⟩ := h
  unfold State.moveRefusal; dsimp only
  have n1 : ¬((s.axis a).state = .unhomed ∨ (s.axis a).state = .homing) := by
    intro e; rcases e with e | e <;> simp [e] at h1
  have n2 : ¬((s.axis a).state = .fault) := by intro e; simp [e] at h1
  rw [if_neg n1, if_neg n2]
  simp only [h2, h3, h4]
  cases a
  · have := h6 rfl; simp [Resolver.pinned, this]
  · have := h5 rfl; simp [LensFacts.within, this]
  · simp

/-- An axis brought to rest by CLEAR, written out (R69). -/
theorem AxisRecord.clearRest_eq (r : AxisRecord) : ({ r with backlashRemaining := 0 } : AxisRecord).clearRest = { r with
        backlashRemaining := 0, state := .idle, target := r.position, mover := none, joined := none, stopPending := .none
        ending := .reached, stepTimer := none, wakeTimer := none, settleTimer := none, releaseAtRest := false
        hold := if r.releaseAtRest then .released else r.hold
        holdTimer := if r.releaseAtRest then none else r.holdAtRest } := by
  unfold AxisRecord.clearRest
  dsimp only
  cases h : r.releaseAtRest
  · simp [AxisRecord.startHold_eq, AxisRecord.rest, AxisRecord.holdAtRest]
  · simp [AxisRecord.letGo, AxisRecord.rest]

/-- A record put back changes nothing. -/
theorem State.setAxis_self (s : State) (a) : s.setAxis a (s.axis a) = s := by cases a <;> rfl

/-- A decision point starts no settle of 0 with a settle time above 0. -/
theorem State.decisionPoint_noZero {s : State} {a} (h0 : s.noZeroSettle) (hp : (s.axis a).profile.settle ≠ 0) : (s.decisionPoint a).noZeroSettle := by
  unfold State.decisionPoint
  dsimp only
  split
  · exact State.setAxis_noZero h0 (by show some (s.axis a).profile.settle ≠ some 0; simpa using hp)
  · unfold State.clearAxisRest
    dsimp only
    have : ((s.setAxis a { s.axis a with backlashRemaining := 0 }).setAxis a ((s.setAxis a { s.axis a with backlashRemaining := 0 }).axis a).clearRest).noZeroSettle := by
      rw [State.setAxis_setAxis]
      refine State.setAxis_noZero h0 ?_
      have : ((s.setAxis a { s.axis a with backlashRemaining := 0 }).axis a) = { s.axis a with backlashRemaining := 0 } := by simp
      rw [this, AxisRecord.clearRest_eq]; simp
    split
    · exact State.applyOwed_noZero this
    · exact this
  · split
    · exact State.setAxis_noZero h0 (by show some (s.axis a).profile.settle ≠ some 0; simpa using hp)
    · exact State.stepAxis_noZero h0 hp

/-- An axis whose settle has expired, written out (R50). -/
theorem AxisRecord.settled_eq (r : AxisRecord) : r.settled = { r with
      state := .idle, target := r.position, mover := none, joined := none, stopPending := .none, ending := .reached
      stepTimer := none, wakeTimer := none, settleTimer := none, holdTimer := r.holdAtRest
      completion := if r.mover = some .host then ⟨true, some r.ending.outcome, r.position, none⟩ else r.completion } := by
  unfold AxisRecord.settled
  dsimp only
  split
  · rename_i h; rw [AxisRecord.startHold_eq]; rfl
  · rw [AxisRecord.startHold_eq]; rfl

/-- The needed direction (R46). -/
theorem AxisRecord.needed_eq {r : AxisRecord} {p q} (hp : r.position = some p) (hq : r.target = some q) :
    r.needed = if p < q then .awayFromHome else .towardHome := by simp [AxisRecord.needed, hp, hq]

/-- A reversal of direction, written out (R47). -/
theorem AxisRecord.reversed_eq {r : AxisRecord} {d : Direction} (hd : r.needed = d) : r.reversed = { r with
    lastDirection := d, backlashRemaining := if d = r.lastDirection then r.backlashRemaining else r.profile.backlash } := by
  unfold AxisRecord.reversed; rw [hd]
  split
  · rename_i h; subst h; rfl
  · rfl

/-- A focus target brought within the limits (R78). -/
theorem LensFacts.clamp_eq {f : LensFacts} {x : Int} {t : Nat} (hl : f.far ≤ f.near)
   (h : (t : Int) = max (f.far : Int) (min (f.near : Int) x)) : f.clamp x = t := by
  unfold LensFacts.clamp clampInt
  (repeat' split) <;> omega

/-- A sweep that can be asked for has a stride above 0. -/
theorem sweepParams_stride {p w} (hp : sweepParams p = some w) : 1 ≤ w.stride := by
  unfold sweepParams at hp
  split at hp
  · simp only [bind, Option.bind, when] at hp
    split at hp
    · simp at hp
    · split at hp
      · rename_i h; cases hp; simp at h; simp; omega
      · simp at hp
  · simp at hp

/-- Stop 1 is the start (R88). -/
theorem SweepParams.stopAt_one {w : SweepParams} (h : 1 ≤ w.stride) : w.stopAt 1 = w.start := by
  unfold SweepParams.stopAt
  split
  · rename_i h1
    unfold SweepParams.planned at h1
    dsimp only at h1
    by_contra hne
    have : 1 ≤ (w.last - w.start + (w.start - w.last) + w.stride - 1) / w.stride := by
      rw [Nat.le_div_iff_mul_le (by omega)]; omega
    omega
  · split <;> simp

/-- At least one stop is planned. -/
theorem SweepParams.planned_pos {w : SweepParams} : 1 ≤ w.planned := Nat.le_add_left _ _

/-- The next stop within the limits, with the stops skipped (R92). -/
theorem SweepParams.nextWithin_some {w : SweepParams} {f : LensFacts} : ∀ (fuel n k : Nat), n ≤ k → k < n + fuel → f.within (w.stopAt k) = true →
    (∀ j, n ≤ j → j < k → f.within (w.stopAt j) = false) → w.nextWithin f fuel n = (some k, k - n)
  | 0, n, k, h1, h2, _, _ => by omega
  | fuel + 1, n, k, h1, h2, h3, h4 => by
    unfold SweepParams.nextWithin
    by_cases e : n = k
    · subst e; rw [if_pos h3]; simp
    · rw [if_neg (by simp [h4 n (Nat.le_refl _) (by omega)])]
      rw [SweepParams.nextWithin_some fuel (n+1) k (by omega) (by omega) h3 (fun j a b => h4 j (by omega) b)]
      simp; omega

/-- No further stop lies within the limits (R92). -/
theorem SweepParams.nextWithin_none {w : SweepParams} {f : LensFacts} : ∀ (fuel n : Nat),
    (∀ j, n ≤ j → j < n + fuel → f.within (w.stopAt j) = false) → w.nextWithin f fuel n = (none, fuel)
  | 0, n, _ => rfl
  | fuel + 1, n, h4 => by
    unfold SweepParams.nextWithin
    rw [if_neg (by simp [h4 n (Nat.le_refl _) (by omega)])]
    rw [SweepParams.nextWithin_none fuel (n+1) (fun j a b => h4 j (by omega) (by omega))]

end Sys2Proof.Machine
end

