-- ==== Sys2Proof/Laws/Record.lean ====
section
/-! SUPPORT. What the shared operations do to the active lens record, its pins and ZOOM: one lemma per operation says that it
keeps the laws of the record, under the conditions in which it is used. -/

set_option linter.unusedTactic false
set_option linter.unreachableTactic false

namespace Sys2Proof.Machine

variable {s t : State}

/-- The laws look at seven items alone. -/
theorem State.RecordLaw.congr (h : s.RecordLaw) (h1 : t.resolver.slotPin = s.resolver.slotPin)
    (h2 : t.resolver.sweepPin = s.resolver.sweepPin) (h3 : t.resolver.record.resolved = s.resolver.record.resolved)
    (h4 : t.zoom.state = s.zoom.state) (h5 : t.standby = s.standby) (h6 : t.release.anyActive = s.release.anyActive)
    (h7 : t.sweep.record.state.runs = s.sweep.record.state.runs) : t.RecordLaw := by
  simpa only [State.RecordLaw, Resolver.pinned, h1, h2, h3, h4, h5, h6, h7] using h

/-! ### The pins -/

/-- The two pin places. -/
def State.places (s : State) : Bool × Bool := (s.resolver.slotPin, s.resolver.sweepPin)

theorem State.pinned_of_places (h : t.places = s.places) : t.resolver.pinned = s.resolver.pinned := by
  have h1 : t.resolver.slotPin = s.resolver.slotPin := congrArg (·.1) h
  have h2 : t.resolver.sweepPin = s.resolver.sweepPin := congrArg (·.2) h
  simp only [Resolver.pinned, h1, h2]

section places
variable (s)
@[simp] theorem State.setAxis_places (a : AxisId) (r : AxisRecord) : (s.setAxis a r).places = s.places := by cases a <;> rfl
@[simp] theorem State.setTravel_places (x : ZoomTravel) : (s.setTravel x).places = s.places := rfl
@[simp] theorem State.setHandoffs_places (x : Handoffs) : (s.setHandoffs x).places = s.places := rfl
@[simp] theorem State.unresolve_places : s.unresolve.places = s.places := by
  unfold State.unresolve; split <;> simp [State.places]
@[simp] theorem State.load_places (i : Fin 32) (q : Pair) : (s.load i q).places = s.places := rfl
@[simp] theorem State.writeMiss_places (q : Pair) (m : MissSource) : (s.writeMiss q m).places = s.places :=
  s.unresolve_places
@[simp] theorem State.resolveBand_places (b : Nat) (m : MissSource) : (s.resolveBand b m).places = s.places := by
  unfold State.resolveBand; dsimp only; split <;> simp
@[simp] theorem State.resolveHere_places (m : MissSource) : (s.resolveHere m).places = s.places := by
  unfold State.resolveHere; split <;> simp
@[simp] theorem State.zoomForbidden_places : s.zoomForbidden.places = s.places := rfl
@[simp] theorem State.resolveWaiting_places (b : Nat) (m : MissSource) : (s.resolveWaiting b m).places = s.places := by
  unfold State.resolveWaiting; dsimp only; split <;> simp
@[simp] theorem State.resolve_places (m : MissSource) : (s.resolve m).places = s.places := by
  unfold State.resolve; (repeat' split) <;> first | rfl | simp
@[simp] theorem State.homingDone_places (a : AxisId) : (s.homingDone a).places = s.places := by
  unfold State.homingDone State.focusHomed State.internalMove; dsimp only; (repeat' split) <;> simp
end places

/-- A resolution moves ZOOM only out of WAIT_MAP. -/
theorem State.resolve_zoom (m : MissSource) (h : s.zoom.state ≠ .waitMap) : (s.resolve m).zoom = s.zoom := by
  unfold State.resolve State.resolveHere State.resolveBand State.writeMiss State.unresolve State.load
  simp only [h, if_false]
  (repeat' split) <;> simp

/-! ### The states an axis record goes to -/

@[simp] theorem AxisRecord.settle_state (r : AxisRecord) : r.settle.state = .settling := rfl
@[simp] theorem AxisRecord.settleHere_state (r : AxisRecord) (e : Ending) : (r.settleHere e).state = .settling := rfl
@[simp] theorem AxisRecord.haltHere_state (r : AxisRecord) (e : Ending) : (r.haltHere e).state = .settling := rfl
@[simp] theorem AxisRecord.countedStep_state (r : AxisRecord) : r.countedStep.state = .moving := rfl
@[simp] theorem AxisRecord.backlashStep_state (r : AxisRecord) : r.backlashStep.state = .moving := rfl
@[simp] theorem AxisRecord.wake_state (r : AxisRecord) (x : AxisState) : (r.wake x).state = x := rfl
@[simp] theorem AxisRecord.letGo_state (r : AxisRecord) : r.letGo.state = r.state := rfl
@[simp] theorem AxisRecord.rest_state (r : AxisRecord) : r.rest.state = .idle := rfl
@[simp] theorem AxisRecord.startHold_state (r : AxisRecord) : r.startHold.state = r.state := by
  unfold AxisRecord.startHold; split <;> rfl
@[simp] theorem AxisRecord.post_state (r : AxisRecord) (o : AxisOutcome) (f : Option Nat) (w : Option SweepSummary) :
    (r.post o f w).state = r.state := rfl
@[simp] theorem AxisRecord.unhome_state (r : AxisRecord) : r.unhome.state = .unhomed := by simp [AxisRecord.unhome]
@[simp] theorem AxisRecord.clearRest_state (r : AxisRecord) : r.clearRest.state = .idle := by
  unfold AxisRecord.clearRest; dsimp only; split <;> simp
@[simp] theorem AxisRecord.settled_state (r : AxisRecord) : r.settled.state = .idle := by
  unfold AxisRecord.settled; dsimp only; split <;> simp
@[simp] theorem AxisRecord.reversed_state (r : AxisRecord) : r.reversed.state = r.state := by
  unfold AxisRecord.reversed; split <;> rfl
@[simp] theorem AxisRecord.begin_state (r : AxisRecord) (n : Nat) (m : Mover) : (r.begin n m).state = r.state := rfl
@[simp] theorem AxisRecord.retarget_state (r : AxisRecord) (n : Nat) (m : Mover) : (r.retarget n m).state = r.state := rfl

/-! ### Operations beside the record: they keep all seven items -/

section beside
variable (s)
theorem State.setAxis_law (a : AxisId) (r : AxisRecord) (ha : a ≠ .zoom) (h : s.RecordLaw) : (s.setAxis a r).RecordLaw := by
  cases a
  · contradiction
  · exact h
  · exact h
theorem State.setZoom_law (r : AxisRecord) (hr : r.state = s.zoom.state) (h : s.RecordLaw) : (s.setAxis .zoom r).RecordLaw :=
  h.congr rfl rfl rfl hr rfl rfl rfl
theorem State.internalMove_law (a : AxisId) (n : Nat) (m : Mover) (ha : a ≠ .zoom) (h : s.RecordLaw) :
    (s.internalMove a n m).RecordLaw := s.setAxis_law a _ ha h
theorem State.applyOwed_law (h : s.RecordLaw) : s.applyOwed.RecordLaw := by
  unfold State.applyOwed; dsimp only
  (repeat' split)
  · exact h
  · exact State.internalMove_law _ _ _ _ (by decide) h
  · exact h
theorem State.focusHomed_law (h : s.RecordLaw) : s.focusHomed.RecordLaw := by
  unfold State.focusHomed; dsimp only
  (repeat' split)
  · exact h
  · exact State.internalMove_law _ _ _ _ (by decide) h
  · exact h
theorem State.track_law (l : TrackLoad) (h : s.RecordLaw) : (s.track l).RecordLaw := by
  unfold State.track; dsimp only
  (repeat' split)
  · exact h
  · exact h
  · exact h
  · exact State.internalMove_law _ _ _ _ (by decide) h
theorem State.foldl_track_law (l : List TrackLoad) (h : s.RecordLaw) : (l.foldl State.track s).RecordLaw := by
  induction l generalizing s with
  | nil => exact h
  | cons x l ih => exact ih _ (s.track_law x h)
theorem State.deliverLoads_law (h : s.RecordLaw) : s.deliverLoads.RecordLaw := State.foldl_track_law _ _ h
theorem State.flushStab_law (h : s.RecordLaw) : s.flushStab.RecordLaw := h
theorem State.readHome_law (a : AxisId) (b : Bool) (h : s.RecordLaw) : (s.readHome a b).RecordLaw := by
  cases a <;> exact h
theorem State.dropOwed_law (a : AxisId) (h : s.RecordLaw) : (s.dropOwed a).RecordLaw := by
  cases a <;> exact h
end beside

/-! ### Resolutions -/

theorem State.unresolve_law (hp : s.resolver.pinned = false) (h : s.RecordLaw) : s.unresolve.RecordLaw := by
  unfold State.unresolve
  split
  · simp only [State.RecordLaw, Resolver.pinned, Bool.or_eq_false_iff] at *
    simp_all
  · exact h

theorem State.unresolve_resolved (s : State) : s.unresolve.resolver.record.resolved = false := by
  unfold State.unresolve
  split
  · rfl
  · simp_all

theorem State.load_law (i : Fin 32) (q : Pair) (hz : s.zoom.state.homed = true) (hs : s.standby = false)
    (h : s.RecordLaw) : (s.load i q).RecordLaw := by
  obtain ⟨h1, h2, h3, h4, h5⟩ := h
  refine ⟨fun hp => ⟨rfl, (h1 hp).2⟩, h2, h3, fun _ => hz, fun hb => ?_⟩
  have hb' : s.standby = true := hb
  simp [hs] at hb'

theorem State.writeMiss_law (q : Pair) (m : MissSource) (hp : s.resolver.pinned = false) (h : s.RecordLaw) :
    (s.writeMiss q m).RecordLaw := State.unresolve_law hp h

theorem State.homed_of_zoomBand {b : Nat} (h : s.zoomBand = some b) : s.zoom.state.homed = true := by
  unfold State.zoomBand at h
  split at h
  · assumption
  · cases h

theorem State.resolveBand_law (b : Nat) (m : MissSource) (hz : s.zoom.state.homed = true) (hp : s.resolver.pinned = false)
    (hs : s.standby = false) (h : s.RecordLaw) : (s.resolveBand b m).RecordLaw := by
  unfold State.resolveBand; dsimp only
  split
  · exact State.load_law _ _ hz hs h
  · exact State.writeMiss_law _ _ hp h

theorem State.resolveHere_law (m : MissSource) (hp : s.resolver.pinned = false) (hs : s.standby = false)
    (h : s.RecordLaw) : (s.resolveHere m).RecordLaw := by
  unfold State.resolveHere
  split
  · rename_i b hb
    exact State.resolveBand_law b m (State.homed_of_zoomBand hb) hp hs h
  · exact State.unresolve_law hp h

/-- ZOOM goes to a state that is at rest and homed. -/
theorem State.setZoom_rest_law (r : AxisRecord) (hr : r.state = .idle ∨ (r.state = .settling ∧ s.standby = false))
    (h : s.RecordLaw) : (s.setAxis .zoom r).RecordLaw := by
  obtain ⟨h1, h2, h3, h4, h5⟩ := h
  refine ⟨fun hp => ⟨(h1 hp).1, ?_⟩, h2, h3, fun _ => ?_, fun hb => ⟨(h5 hb).1, ?_⟩⟩
  · rcases hr with hr | hr
    · exact .inl hr
    · exact .inr hr.1
  · rcases hr with hr | hr
    · simp [hr, AxisState.homed]
    · simp [hr.1, AxisState.homed]
  · rcases hr with hr | hr
    · simp [hr, AxisState.resting]
    · have hb' : s.standby = true := hb
      simp [hr.2] at hb'

/-- ZOOM goes to a homed state while nothing is pinned and the part is awake. -/
theorem State.setZoom_homed_law (r : AxisRecord) (hr : r.state.homed = true) (hp : s.resolver.pinned = false)
    (hs : s.standby = false) (h : s.RecordLaw) : (s.setAxis .zoom r).RecordLaw := by
  obtain ⟨h1, h2, h3, h4, h5⟩ := h
  refine ⟨fun hq => ?_, h2, h3, fun _ => hr, fun hb => ?_⟩
  · have hq' : s.resolver.pinned = true := hq
    simp [hp] at hq'
  · have hb' : s.standby = true := hb
    simp [hs] at hb'

theorem State.zoomForbidden_law (hs : s.standby = false) (h : s.RecordLaw) : s.zoomForbidden.RecordLaw :=
  State.setZoom_rest_law _ (.inr ⟨rfl, hs⟩) h

theorem State.resolveWaiting_law (b : Nat) (m : MissSource) (hz : s.zoom.state.homed = true)
    (hp : s.resolver.pinned = false) (hs : s.standby = false) (h : s.RecordLaw) : (s.resolveWaiting b m).RecordLaw := by
  unfold State.resolveWaiting; dsimp only
  split
  · exact State.setZoom_homed_law _ (by simp [AxisState.homed]) hp hs (State.load_law _ _ hz hs h)
  · exact State.resolveHere_law _ hp hs (State.zoomForbidden_law hs h)
  · exact State.writeMiss_law _ _ hp h

theorem State.resolve_law (m : MissSource) (h : s.RecordLaw) : (s.resolve m).RecordLaw := by
  unfold State.resolve
  split
  · exact h
  · rename_i hp
    have hp : s.resolver.pinned = false := by simpa using hp
    split
    · exact h
    · rename_i hs
      have hs : s.standby = false := by simpa using hs
      split
      · rename_i hw
        split
        · exact State.resolveWaiting_law _ _ (by simp [hw, AxisState.homed]) hp hs h
        · exact State.resolveHere_law _ hp hs h
      · exact State.resolveHere_law _ hp hs h

theorem State.examine_law (r : Report) (h : s.RecordLaw) : (s.examine r).RecordLaw := by
  unfold State.examine
  (repeat' split) <;> first | exact h | exact State.resolve_law _ h

theorem State.takeReports_law (h : s.RecordLaw) : s.takeReports.RecordLaw := by
  unfold State.takeReports
  have hs : (s.setHandoffs { s.handoffs with reports := [] }).RecordLaw := h
  generalize s.setHandoffs { s.handoffs with reports := [] } = u at hs
  induction s.handoffs.reports generalizing u with
  | nil => exact hs
  | cons x l ih => exact ih _ (State.examine_law x hs)

theorem State.drain_law (n : Nat) (h : s.RecordLaw) : (s.drain n).RecordLaw := by
  induction n generalizing s with
  | zero => exact h
  | succ n ih =>
    unfold State.drain
    split
    · exact h
    · exact ih (State.examine_law (s := s.setMap _) _ h)

theorem State.drained_law (h : s.RecordLaw) : s.drained.RecordLaw := State.drain_law _ (State.takeReports_law h)

theorem State.takeHandoffs_law (h : s.RecordLaw) : s.takeHandoffs.RecordLaw :=
  State.deliverLoads_law _ (State.takeReports_law h)

theorem State.homingDone_law (a : AxisId) (h : s.RecordLaw) : (s.homingDone a).RecordLaw := by
  cases a
  · exact State.resolve_law _ h
  · exact State.focusHomed_law _ h
  · exact h

/-! ### Steps of ZOOM -/

theorem State.zoomCross_law (r : AxisRecord) (b : Nat) (hz : s.zoom.state.homed = true) (hp : s.resolver.pinned = false)
    (hs : s.standby = false) (h : s.RecordLaw) : (s.zoomCross r b).RecordLaw := by
  unfold State.zoomCross
  split
  · exact State.setZoom_homed_law _ (by simp [AxisState.homed]) hp hs (State.load_law _ _ hz hs h)
  · have h' : ((s.setAxis .zoom r).setAxis .zoom
        { (s.setAxis .zoom r).zoom.haltHere .bandForbidden with mover := some .host }).RecordLaw :=
      State.setZoom_homed_law (s := s) { r.haltHere .bandForbidden with mover := some .host } rfl hp hs h
    exact h'
  · have hw := State.writeMiss_law (s := s) ⟨s.resolver.context, b⟩ .zoomStep hp h
    have hp' : (s.writeMiss ⟨s.resolver.context, b⟩ .zoomStep).resolver.pinned = false := by
      rw [State.pinned_of_places (State.writeMiss_places s _ _), hp]
    have hs' : (s.writeMiss ⟨s.resolver.context, b⟩ .zoomStep).standby = false := by
      rw [State.standby_of_apart (State.writeMiss_apart s _ _), hs]
    have hx := State.setZoom_homed_law
      { r with state := .waitMap, stepTimer := none, wakeTimer := none, backlashRemaining := 0 } rfl hp' hs' hw
    exact hx

theorem State.zoomStepOn_law (hz : s.zoom.state.homed = true) (hp : s.resolver.pinned = false) (hs : s.standby = false)
    (h : s.RecordLaw) : s.zoomStepOn.RecordLaw := by
  unfold State.zoomStepOn; dsimp only
  (repeat' split)
  · exact State.setZoom_homed_law _ (by simp [AxisState.homed]) hp hs h
  · exact State.setZoom_homed_law _ (by simp [AxisState.homed]) hp hs h
  · exact State.zoomCross_law _ _ hz hp hs h

/-- What a step of ZOOM needs: it is homed, nothing is pinned, and the part is awake. Nothing is asked of the other axes. -/
def State.MayStep (s : State) (a : AxisId) : Prop :=
  a = .zoom → s.zoom.state.homed = true ∧ s.resolver.pinned = false ∧ s.standby = false

theorem State.stepAxis_law (a : AxisId) (hm : s.MayStep a) (h : s.RecordLaw) : (s.stepAxis a).RecordLaw := by
  cases a
  · obtain ⟨hz, hp, hs⟩ := hm rfl
    exact State.zoomStepOn_law hz hp hs h
  · exact h
  · exact h

/-- An axis goes to a homed state. -/
theorem State.setAxis_homed_law (a : AxisId) (r : AxisRecord) (hr : r.state.homed = true) (hm : s.MayStep a)
    (h : s.RecordLaw) : (s.setAxis a r).RecordLaw := by
  cases a
  · obtain ⟨hz, hp, hs⟩ := hm rfl
    exact State.setZoom_homed_law r hr hp hs h
  · exact h
  · exact h

theorem State.startMove_law (a : AxisId) (hm : s.MayStep a) (h : s.RecordLaw) : (s.startMove a).RecordLaw := by
  unfold State.startMove; dsimp only
  (repeat' split)
  · exact State.setAxis_homed_law a _ (by simp [AxisState.homed]) hm h
  · exact State.stepAxis_law a hm h
  · exact State.setAxis_homed_law a _ (by simp [AxisState.homed]) hm h

theorem State.zoomEndWait_law (e : Ending) (hs : s.standby = false) (h : s.RecordLaw) : (s.zoomEndWait e).RecordLaw :=
  State.resolve_law _ (State.setZoom_rest_law _ (.inr ⟨rfl, hs⟩) h)

/-! ### Releasing a pin -/

theorem State.pinsGone_law (h : s.RecordLaw) : s.pinsGone.RecordLaw := by
  have ha : (s.setResolver s.resolver.applyPending).RecordLaw := by
    unfold Resolver.applyPending
    split <;> exact h
  unfold State.pinsGone; dsimp only
  split
  · exact State.resolve_law (s := (s.setResolver s.resolver.applyPending).setResolver _) _ ha
  · exact ha

@[simp] theorem State.pinsGone_places (s : State) : s.pinsGone.places = s.places := by
  have e : (s.setResolver s.resolver.applyPending).places = s.places := by
    unfold Resolver.applyPending
    split <;> rfl
  unfold State.pinsGone; dsimp only
  split
  · simp only [State.postDrain_eq, State.setHandoffs_places, State.resolve_places]
    exact e
  · exact e

/-- After the release of a holder's pin its place is clear, and the other place is as it was. -/
theorem State.releasePin_places (s : State) (h : PinHolder) :
    (s.releasePin h).places = match h with
      | .slot => (false, s.resolver.sweepPin)
      | .sweep => (s.resolver.slotPin, false) := by
  have key : ∀ u : State, (if u.resolver.pinned then u else u.pinsGone).places = u.places := by
    intro u; split
    · rfl
    · exact u.pinsGone_places
  cases h
  · by_cases hb : s.resolver.slotPin = true
    · simp only [State.releasePin, Resolver.holdsPin, hb, if_true, State.postPin_eq, State.setHandoffs_places, key]
      rfl
    · have hb' : s.resolver.slotPin = false := by simpa using hb
      simp [State.releasePin, Resolver.holdsPin, hb', State.places]
  · by_cases hb : s.resolver.sweepPin = true
    · simp only [State.releasePin, Resolver.holdsPin, hb, if_true, key]
      rfl
    · have hb' : s.resolver.sweepPin = false := by simpa using hb
      simp [State.releasePin, Resolver.holdsPin, hb', State.places]

theorem State.setPin_law (h : PinHolder) (hl : s.RecordLaw) : (s.setResolver (s.resolver.setPin h false)).RecordLaw := by
  obtain ⟨h1, h2, h3, h4, h5⟩ := hl
  cases h
  · refine ⟨fun hp => h1 ?_, fun hf => ?_, h3, h4, h5⟩
    · have hp' : (false || s.resolver.sweepPin) = true := hp
      simp only [Bool.false_or] at hp'
      simp [Resolver.pinned, hp']
    · cases hf
  · refine ⟨fun hp => h1 ?_, h2, fun hf => ?_, h4, h5⟩
    · have hp' : (s.resolver.slotPin || false) = true := hp
      simp only [Bool.or_false] at hp'
      simp [Resolver.pinned, hp']
    · cases hf

/-- A place that is clear is cleared to no effect. -/
theorem Resolver.setPin_clear (r : Resolver) (h : PinHolder) (hc : r.holdsPin h = false) : r.setPin h false = r := by
  cases h <;> cases r <;> simp_all [Resolver.holdsPin, Resolver.setPin]

/-- The release of a pin keeps the laws, if they hold with the place cleared. -/
theorem State.releasePin_law_of (h : PinHolder) (hl : (s.setResolver (s.resolver.setPin h false)).RecordLaw) :
    (s.releasePin h).RecordLaw := by
  have key : ∀ u : State, u.RecordLaw → (if u.resolver.pinned then u else u.pinsGone).RecordLaw := by
    intro u hu; split
    · exact hu
    · exact State.pinsGone_law hu
  unfold State.releasePin
  split
  · cases h
    · exact key _ hl
    · exact key _ hl
  · rename_i hc
    rw [Resolver.setPin_clear _ _ (by simpa using hc)] at hl
    exact hl

theorem State.releasePin_law (h : PinHolder) (hl : s.RecordLaw) : (s.releasePin h).RecordLaw :=
  State.releasePin_law_of h (State.setPin_law h hl)

/-! ### The release's record -/

@[simp] theorem Release.clearControl_slots (r : Release) : r.clearControl.slots = r.slots := rfl
@[simp] theorem Release.closeShutter_slots (r : Release) : r.closeShutter.slots = r.slots := rfl
@[simp] theorem Release.endBurst_slots (r : Release) (e : EndReason) : (r.endBurst e).slots = r.slots := rfl
@[simp] theorem Release.refuseArm_slots (r : Release) (e : Result) : (r.refuseArm e).slots = r.slots := rfl
@[simp] theorem Release.beginBurst_slots (r : Release) : r.beginBurst.slots = r.slots := rfl
@[simp] theorem Release.readyIfDone_slots (r : Release) : r.readyIfDone.slots = r.slots := by
  unfold Release.readyIfDone; split <;> rfl
@[simp] theorem Release.nextShot_slots (r : Release) (i : Fin 12) : (r.nextShot i).slots = r.slots := by
  unfold Release.nextShot; (repeat' split) <;> rfl
@[simp] theorem Release.finish_slots (r : Release) (i : Fin 12) : (r.finish i).slots = r.slots := by
  unfold Release.finish; split <;> rfl
@[simp] theorem Release.setSlot_slots (r : Release) (i : Fin 12) (x : Slot) : (r.setSlot i x).slots = put r.slots i x := rfl

theorem put_get {α : Type} {n : Nat} (v : Vector α n) (i j : Fin n) (x : α) :
    (put v i x)[j] = if i = j then x else v[j] := by
  simp only [put, Fin.getElem_fin, Vector.getElem_set, Fin.ext_iff]

theorem Release.anyActive_iff (r : Release) : r.anyActive = true ↔ ∃ i : Fin 12, (r.slots[i]).state.active = true := by
  simp only [Release.anyActive, List.any_eq_true, Vector.mem_toList_iff, Vector.mem_iff_getElem]
  constructor
  · rintro ⟨x, ⟨i, hi, rfl⟩, hx⟩
    exact ⟨⟨i, hi⟩, hx⟩
  · rintro ⟨i, hi⟩
    exact ⟨_, ⟨i.val, i.isLt, rfl⟩, hi⟩

theorem Release.anyActive_congr {r q : Release} (h : r.slots = q.slots) : r.anyActive = q.anyActive := by
  simp only [Release.anyActive, h]

/-- A slot that becomes active makes some slot active. -/
theorem Release.anyActive_setSlot (r : Release) (i : Fin 12) (x : Slot) (h : x.state.active = true) :
    (r.setSlot i x).anyActive = true :=
  (Release.anyActive_iff _).2 ⟨i, by rw [Release.setSlot_slots, put_get]; simp [h]⟩

/-- A slot that keeps its activity changes nothing. -/
theorem Release.anyActive_setSlot_same (r : Release) (i : Fin 12) (x : Slot)
    (h : x.state.active = (r.slots[i]).state.active) : (r.setSlot i x).anyActive = r.anyActive := by
  rw [Bool.eq_iff_iff, Release.anyActive_iff, Release.anyActive_iff]
  constructor
  · rintro ⟨j, hj⟩
    refine ⟨j, ?_⟩
    rw [Release.setSlot_slots, put_get] at hj
    split at hj
    · rename_i e; rw [← e, ← h]; exact hj
    · exact hj
  · rintro ⟨j, hj⟩
    refine ⟨j, ?_⟩
    rw [Release.setSlot_slots, put_get]
    split
    · rename_i e; rw [h, e]; exact hj
    · exact hj

/-- The release's record changes, and a slot pin that is held still has its slot. -/
theorem State.setRelease_law (r : Release) (hr : s.resolver.slotPin = true → r.anyActive = true) (h : s.RecordLaw) :
    (s.setRelease r).RecordLaw := by
  obtain ⟨h1, _, h3, h4, h5⟩ := h
  exact ⟨h1, hr, h3, h4, h5⟩

/-- The release's record changes and its slots stay. -/
theorem State.setRelease_slots_law (r : Release) (hr : r.slots = s.release.slots) (h : s.RecordLaw) :
    (s.setRelease r).RecordLaw := by
  refine State.setRelease_law r (fun hp => ?_) h
  rw [Release.anyActive_congr hr]
  exact h.2.1 hp

/-! ### Arming and exposure -/

theorem State.setExposure_law (e : ExposureUnit) (h : s.RecordLaw) : (s.setExposure e).RecordLaw := h
theorem State.setStab_law (x : Stabilizer) (h : s.RecordLaw) : (s.setStab x).RecordLaw := h

/-- A pin is granted on a resolved record, and nothing else changes. -/
theorem State.askPin_eq {u : State} {p : PinHolder} (e : s.askPin p = some u) :
    s.resolver.record.resolved = true ∧ u = s.setResolver (s.resolver.setPin p true) := by
  unfold State.askPin at e
  split at e
  · rename_i hr; cases e; exact ⟨hr, rfl⟩
  · cases e

/-- A slot is armed under the pin just granted. -/
theorem State.armSlot_law (o : ShotOrigin) (b : Nat) (x : Solution) (i : Fin 12)
    (hr : s.resolver.record.resolved = true) (hz : s.zoom.state = .idle ∨ s.zoom.state = .settling) (h : s.RecordLaw) :
    ((s.setResolver (s.resolver.setPin .slot true)).armSlot o b x i).RecordLaw := by
  obtain ⟨_, _, h3, h4, h5⟩ := h
  refine ⟨fun _ => ⟨hr, hz⟩, fun _ => ?_, h3, h4, h5⟩
  exact Release.anyActive_setSlot _ i _ rfl

theorem AxisState.rests_of_homed {x : AxisState} (h : x.homed = true) (ht : x.inTravel ≠ true) :
    x = .idle ∨ x = .settling := by
  cases x <;> simp_all [AxisState.homed, AxisState.inTravel]

/-- An arm passes its checks only where no step of ZOOM can be taken. -/
theorem State.armChecks_ok {x : Solution × Fin 12} (e : s.armChecks.2 = .ok x) : s.zoom.state.inTravel ≠ true := by
  unfold State.armChecks at e
  intro hz
  simp only [hz, if_true] at e
  (repeat' split at e) <;> simp at e

theorem State.arm_law (o : ShotOrigin) (b : Nat) (h : s.RecordLaw) : (s.arm o b).1.RecordLaw := by
  have h' := State.takeReports_law h
  unfold State.arm; dsimp only
  split
  · exact h
  · rename_i e
    split
    · exact h'
    · rename_i ek
      obtain ⟨hr, rfl⟩ := State.askPin_eq ek
      have hr' : s.takeReports.resolver.record.resolved = true := hr
      rw [if_pos hr'] at e
      exact State.armSlot_law (s := s.takeReports.setExposure _) o b _ _ hr
        (AxisState.rests_of_homed (h'.2.2.2.1 hr') (State.armChecks_ok (s := s.takeReports) e)) h'

theorem State.armBurst_law (h : s.RecordLaw) : s.armBurst.RecordLaw := by
  unfold State.armBurst; dsimp only
  split
  · exact State.setRelease_slots_law _ rfl (State.arm_law _ _ h)
  · exact State.setRelease_slots_law _ rfl (State.arm_law _ _ h)

theorem State.fullPress_law (h : s.RecordLaw) : s.fullPress.RecordLaw := by
  unfold State.fullPress; dsimp only
  have hb : (s.setRelease s.release.beginBurst).RecordLaw := State.setRelease_slots_law _ rfl h
  (repeat' split) <;> first
    | exact h
    | exact State.armBurst_law hb
    | exact State.setRelease_slots_law _ rfl hb
    | exact State.setRelease_slots_law _ rfl h

theorem State.startExposure_law (i : Fin 12) (x : Slot) (h : s.RecordLaw) : (s.startExposure i x).RecordLaw :=
  State.setRelease_law _ (fun _ => Release.anyActive_setSlot _ i _ rfl) (State.setStab_law _ (State.flushStab_law s h))

theorem State.tryExposure_law (h : s.RecordLaw) : s.tryExposure.RecordLaw := by
  unfold State.tryExposure; dsimp only
  (repeat' split) <;> first | exact h | exact State.startExposure_law _ _ h

theorem State.irisSettled_law (h : s.RecordLaw) : s.irisSettled.RecordLaw := by
  unfold State.irisSettled; dsimp only
  (repeat' split)
  · exact h
  · exact State.tryExposure_law (State.setRelease_slots_law _ rfl h)
  · exact h

theorem State.letSlotGo_law (h : s.RecordLaw) : s.letSlotGo.RecordLaw :=
  State.releasePin_law .slot (State.setAxis_law s .iris _ (by decide) h)

theorem State.letSlotGo_slotPin (s : State) : s.letSlotGo.resolver.slotPin = false :=
  congrArg (·.1) (State.releasePin_places (s.setAxis .iris _) .slot)

/-- Once the slot has been let go, the release's record may change as it will. -/
theorem State.letGo_law (r : Release) (h : s.RecordLaw) : (s.letSlotGo.setRelease r).RecordLaw := by
  refine State.setRelease_law r (fun hp => ?_) (State.letSlotGo_law h)
  rw [State.letSlotGo_slotPin] at hp
  cases hp

theorem State.cancelArm_law (i : Fin 12) (r : Option Result) (e : EndReason) (h : s.RecordLaw) :
    (s.cancelArm i r e).RecordLaw := State.letGo_law _ h

theorem State.irisStopped_law (h : s.RecordLaw) : s.irisStopped.RecordLaw := by
  unfold State.irisStopped
  (repeat' split) <;> first | exact h | exact State.cancelArm_law _ _ _ h

theorem State.slotFreed_law (h : s.RecordLaw) : s.slotFreed.RecordLaw := by
  unfold State.slotFreed
  split
  · exact State.armBurst_law (State.setRelease_slots_law _ rfl h)
  · exact h

theorem State.sweepOutcomeNotice_law (o : SweepOutcome) (h : s.RecordLaw) : (s.sweepOutcomeNotice o).RecordLaw := by
  unfold State.sweepOutcomeNotice; dsimp only
  have h1 : (s.setRelease { s.release with sweepOutcome := some (.ended o), sweepOwed := false }).RecordLaw :=
    State.setRelease_slots_law _ rfl h
  (repeat' split)
  · exact State.setRelease_slots_law _ (Release.readyIfDone_slots _)
      (State.armBurst_law (State.setRelease_slots_law _ rfl h1))
  · exact State.setRelease_slots_law _ (Release.readyIfDone_slots _)
      (State.setRelease_slots_law _ rfl (State.setRelease_slots_law _ rfl h1))
  · exact State.setRelease_slots_law _ (Release.readyIfDone_slots _) h1
  · exact State.setRelease_slots_law _ (Release.readyIfDone_slots _) h

theorem State.lockFilledNotice_law (h : s.RecordLaw) : s.lockFilledNotice.RecordLaw :=
  State.setRelease_slots_law _ (Release.readyIfDone_slots _) h

/-! ### The sweep -/

/-- The sweep's record changes, and a sweep pin that is held still has its sweep. -/
theorem State.setSweep_law (w : SweepUnit) (hw : s.resolver.sweepPin = true → w.record.state.runs = true)
    (h : s.RecordLaw) : (s.setSweep w).RecordLaw := by
  obtain ⟨h1, h2, _, h4, h5⟩ := h
  exact ⟨h1, h2, hw, h4, h5⟩

theorem State.closeSweep_law (o : SweepOutcome) (h : s.RecordLaw) : (s.closeSweep o).RecordLaw := by
  obtain ⟨h1, h2, h3, h4, h5⟩ := State.setPin_law .sweep h
  refine State.releasePin_law_of .sweep ⟨h1, h2, fun hq => ?_, h4, h5⟩
  cases hq

theorem State.endSweep_law (o : SweepOutcome) (h : s.RecordLaw) : (s.endSweep o).RecordLaw := by
  unfold State.endSweep; dsimp only
  split
  · exact State.setAxis_law _ .focus _ (by decide) (State.closeSweep_law o h)
  · exact State.sweepOutcomeNotice_law o (State.closeSweep_law o h)

/-- The sweep's record changes while its sweep runs on. -/
theorem State.setSweep_runs_law (w : SweepUnit) (hw : w.record.state.runs = true) (h : s.RecordLaw) :
    (s.setSweep w).RecordLaw := State.setSweep_law w (fun _ => hw) h

theorem State.nextStop_law (hr : s.sweep.record.state.runs = true) (h : s.RecordLaw) : s.nextStop.1.RecordLaw := by
  unfold State.nextStop; dsimp only
  split
  · exact State.internalMove_law _ _ _ _ (by decide) (State.setSweep_runs_law _ rfl h)
  · exact State.setSweep_runs_law _ hr h

theorem State.openSweep_law (o : SweepOrigin) (p : SweepParams) (hr : s.resolver.record.resolved = true)
    (hz : s.zoom.state = .idle ∨ s.zoom.state = .settling) (h : s.RecordLaw) : (s.openSweep o p).RecordLaw := by
  obtain ⟨_, h2, _, h4, h5⟩ := h
  exact ⟨fun _ => ⟨hr, hz⟩, h2, fun _ => rfl, h4, h5⟩

/-- A sweep that may begin finds the record resolved and ZOOM at rest. -/
theorem State.sweepRefusal_none (h : s.sweepRefusal = none) (hl : s.RecordLaw) :
    s.resolver.record.resolved = true ∧ (s.zoom.state = .idle ∨ s.zoom.state = .settling) := by
  unfold State.sweepRefusal at h
  split at h <;> try cases h
  split at h <;> try cases h
  split at h <;> try cases h
  split at h <;> try cases h
  split at h <;> try cases h
  rename_i ht
  split at h <;> try cases h
  rename_i hr
  have hr' : s.resolver.record.resolved = true := by simpa using hr
  exact ⟨hr', AxisState.rests_of_homed (hl.2.2.2.1 hr') ht⟩

theorem State.beginSweep_law (o : SweepOrigin) (p : SweepParams) (hr : s.resolver.record.resolved = true)
    (hz : s.zoom.state = .idle ∨ s.zoom.state = .settling) (h : s.RecordLaw) : (s.beginSweep o p).1.RecordLaw := by
  unfold State.beginSweep; dsimp only
  have hn := State.nextStop_law (s := s.openSweep o p) rfl (State.openSweep_law o p hr hz h)
  split
  · exact hn
  · exact State.closeSweep_law _ hn

theorem State.sweepAtRest_law (h : s.RecordLaw) : s.sweepAtRest.RecordLaw := by
  unfold State.sweepAtRest; dsimp only
  split
  · exact State.setSweep_runs_law _ rfl h
  · exact State.endSweep_law _ h
  · exact State.endSweep_law _ h
  all_goals exact h

theorem State.judge_law (n : Nat) (hr : s.sweep.record.state.runs = true) (h : s.RecordLaw) : (s.judge n).1.RecordLaw := by
  unfold State.judge; dsimp only
  have h1 : ∀ w : SweepUnit, w.record.state = s.sweep.record.state → (s.setSweep w).RecordLaw :=
    fun w hw => State.setSweep_runs_law w (by rw [hw]; exact hr) h
  split
  · exact State.endSweep_law _ (h1 _ rfl)
  · split
    · split
      · exact State.endSweep_law _ (h1 _ rfl)
      · exact State.internalMove_law _ _ _ _ (by decide) (State.setSweep_runs_law _ rfl (h1 _ rfl))
    · split
      · exact State.nextStop_law hr (h1 _ rfl)
      · exact State.endSweep_law _ (State.nextStop_law hr (h1 _ rfl))

theorem State.stopSweep_law (h : s.RecordLaw) : s.stopSweep.RecordLaw := by
  unfold State.stopSweep
  split
  · exact State.setSweep_runs_law _ rfl h
  · exact State.setSweep_runs_law _ rfl h
  · exact State.endSweep_law _ h
  all_goals exact h

theorem State.releaseSweep_law (h : s.RecordLaw) : s.releaseSweep.RecordLaw := by
  unfold State.releaseSweep
  split
  · rename_i hr
    exact State.setSweep_runs_law _ hr.1 h
  · exact h

/-! ### The ends of moves -/

theorem State.settleExpired_law (a : AxisId) (h : s.RecordLaw) : (s.settleExpired a).RecordLaw := by
  unfold State.settleExpired; dsimp only
  cases a
  · have hz : (s.setAxis .zoom (s.axis .zoom).settled).RecordLaw :=
      State.setZoom_rest_law _ (.inl (AxisRecord.settled_state _)) h
    dsimp only
    split
    · exact State.homingDone_law _ hz
    · exact hz
  · have hf : (s.setAxis .focus (s.axis .focus).settled).RecordLaw := State.setAxis_law _ _ _ (by decide) h
    dsimp only
    refine State.applyOwed_law _ ?_
    (repeat' split) <;> first
      | exact State.sweepAtRest_law (State.homingDone_law _ hf)
      | exact State.homingDone_law _ hf
      | exact State.sweepAtRest_law hf
      | exact hf
  · have hi : (s.setAxis .iris (s.axis .iris).settled).RecordLaw := State.setAxis_law _ _ _ (by decide) h
    dsimp only
    split
    · exact State.irisSettled_law hi
    · exact hi

theorem State.settleNow_law (a : AxisId) (h : s.RecordLaw) : (s.settleNow a).RecordLaw := by
  unfold State.settleNow
  split
  · exact State.settleExpired_law a h
  · exact h

theorem State.settleZero_law (h : s.RecordLaw) : s.settleZero.RecordLaw :=
  State.settleNow_law _ (State.settleNow_law _ (State.settleNow_law _ h))

theorem State.clearAxisRest_law (a : AxisId) (h : s.RecordLaw) : (s.clearAxisRest a).RecordLaw := by
  unfold State.clearAxisRest; dsimp only
  have h' : (s.setAxis a (s.axis a).clearRest).RecordLaw := by
    cases a
    · exact State.setZoom_rest_law _ (.inl (AxisRecord.clearRest_state _)) h
    · exact h
    · exact h
  split
  · exact State.applyOwed_law _ h'
  · exact h'

/-- While ZOOM is in travel nothing is pinned and the part is awake. -/
theorem State.mayStep_of_travel (a : AxisId) (h : s.RecordLaw) (hz : (s.axis a).state.inTravel = true) : s.MayStep a := by
  intro ha
  subst ha
  change s.zoom.state.inTravel = true at hz
  obtain ⟨h1, _, _, _, h5⟩ := h
  refine ⟨?_, ?_, ?_⟩
  · cases hs : s.zoom.state <;> simp_all [AxisState.inTravel, AxisState.homed]
  · by_contra hp
    have hp' : s.resolver.pinned = true := by simpa using hp
    rcases (h1 hp').2 with e | e <;> simp [e, AxisState.inTravel] at hz
  · by_contra hb
    have hb' : s.standby = true := by simpa using hb
    have := (h5 hb').2
    cases hs : s.zoom.state <;> simp_all [AxisState.inTravel, AxisState.resting]

theorem State.decisionPoint_law (a : AxisId) (hz : (s.axis a).state.inTravel = true) (h : s.RecordLaw) :
    (s.decisionPoint a).RecordLaw := by
  have hm := State.mayStep_of_travel a h hz
  unfold State.decisionPoint; dsimp only
  split
  · exact State.setAxis_homed_law a _ (by simp [AxisState.homed]) hm h
  · have hb : (s.setAxis a { s.axis a with backlashRemaining := 0 }).RecordLaw := by
      cases a
      · exact State.setZoom_law _ _ rfl h
      · exact h
      · exact h
    exact State.clearAxisRest_law a hb
  · split
    · exact State.setAxis_homed_law a _ (by simp [AxisState.homed]) hm h
    · exact State.stepAxis_law a hm h

/-- A homing ZOOM leaves the record unresolved, whatever it decides. -/
theorem State.homing_law (r : AxisRecord) (hz : s.zoom.state = .homing) (h : s.RecordLaw) :
    (s.setAxis .zoom r).RecordLaw := by
  obtain ⟨h1, h2, h3, h4, h5⟩ := h
  have hu : s.resolver.record.resolved = false := by
    by_contra hc
    have := h4 (by simpa using hc)
    simp [hz, AxisState.homed] at this
  have hp : s.resolver.pinned = false := by
    by_contra hc
    have := (h1 (by simpa using hc)).1
    simp [hu] at this
  have hs : s.standby = false := by
    by_contra hc
    have := (h5 (by simpa using hc)).2
    simp [hz, AxisState.resting] at this
  refine ⟨fun hq => ?_, h2, h3, fun hq => ?_, fun hq => ?_⟩
  · have hq' : s.resolver.pinned = true := hq
    simp [hp] at hq'
  · have hq' : s.resolver.record.resolved = true := hq
    simp [hu] at hq'
  · have hq' : s.standby = true := hq
    simp [hs] at hq'

theorem State.homingDecision_law (a : AxisId) (b : Bool) (hz : (s.axis a).state = .homing) (h : s.RecordLaw) :
    (s.homingDecision a b).RecordLaw := by
  unfold State.homingDecision
  cases a
  · exact State.homing_law _ hz h
  · exact h
  · exact h

theorem State.decideAxis_law (a : AxisId) (b : Bool) (h : s.RecordLaw) : (s.decideAxis a b).RecordLaw := by
  unfold State.decideAxis
  split
  · rename_i hs
    exact State.homingDecision_law a b (by cases a <;> exact hs) (State.readHome_law s a b h)
  · rename_i hs
    exact State.decisionPoint_law a (by simp [hs, AxisState.inTravel]) h
  · rename_i hs
    exact State.decisionPoint_law a (by simp [hs, AxisState.inTravel]) h
  all_goals exact h

/-! ### Host moves, homing and stops -/

theorem State.beginHoming_law (a : AxisId) (b : Bool) (hp : a = .zoom → s.resolver.pinned = false)
    (hs : s.standby = false) (h : s.RecordLaw) : (s.beginHoming a b).RecordLaw := by
  have h1 : ((s.setAxis a (s.axis a).startHoming).reportHoming a).RecordLaw := by
    cases a
    · have hu := State.unresolve_law (hp rfl) h
      have hr := s.unresolve_resolved
      have e : (s.setAxis .zoom (s.axis .zoom).startHoming).reportHoming .zoom =
          s.unresolve.setAxis .zoom (s.axis .zoom).startHoming := by
        simp only [State.reportHoming, State.unresolve, State.setAxis_resolver]
        split <;> rfl
      rw [e]
      obtain ⟨g1, g2, g3, g4, g5⟩ := hu
      refine ⟨fun hq => ?_, g2, g3, fun hq => ?_, fun hq => ?_⟩
      · have hq' : s.unresolve.resolver.pinned = true := hq
        rw [State.pinned_of_places s.unresolve_places, hp rfl] at hq'
        cases hq'
      · have hq' : s.unresolve.resolver.record.resolved = true := hq
        rw [hr] at hq'
        cases hq'
      · have hq' : s.unresolve.standby = true := hq
        rw [State.standby_of_apart s.unresolve_apart, hs] at hq'
        cases hq'
    · exact h
    · exact h
  have h2 : (((s.setAxis a (s.axis a).startHoming).reportHoming a).axis a).state = .homing := by
    cases a
    · simp only [State.reportHoming, State.unresolve]
      split <;> rfl
    · rfl
    · rfl
  unfold State.beginHoming; dsimp only
  generalize (s.setAxis a (s.axis a).startHoming).reportHoming a = u at h1 h2
  split
  · cases a
    · exact State.homing_law _ h2 h1
    · exact h1
    · exact h1
  · exact State.homingDecision_law a b (by cases a <;> exact h2) (State.readHome_law u a b h1)

theorem State.hostMove_law (a : AxisId) (n : Nat) (hp : a = .zoom → s.resolver.pinned = false)
    (hs : s.standby = false) (h : s.RecordLaw) : (s.hostMove a n).RecordLaw := by
  have h1 : (s.dropOwed a).RecordLaw := State.dropOwed_law s a h
  have hp1 : a = .zoom → (s.dropOwed a).resolver.pinned = false := by
    intro e; subst e; exact hp rfl
  have hs1 : (s.dropOwed a).standby = false := by cases a <;> exact hs
  unfold State.hostMove; dsimp only
  generalize s.dropOwed a = u at h1 hp1 hs1
  have begin : (u.axis a).state = .idle ∨ (u.axis a).state = .settling → (u.beginHostMove a n).RecordLaw := by
    intro hst
    unfold State.beginHostMove; dsimp only
    cases a
    · have hz0 : u.zoom.state ≠ .waitMap := by
        intro e
        have : u.zoom.state = .idle ∨ u.zoom.state = .settling := hst
        rcases this with e' | e' <;> simp [e] at e'
      have hd : (if AxisId.zoom = .zoom ∧ u.zoom.settlingHome = true then u.homingDone .zoom else u).RecordLaw ∧
          (if AxisId.zoom = .zoom ∧ u.zoom.settlingHome = true then u.homingDone .zoom else u).resolver.pinned = false ∧
          (if AxisId.zoom = .zoom ∧ u.zoom.settlingHome = true then u.homingDone .zoom else u).standby = false ∧
          (if AxisId.zoom = .zoom ∧ u.zoom.settlingHome = true then u.homingDone .zoom else u).zoom = u.zoom := by
        split
        · exact ⟨State.homingDone_law _ h1, by rw [State.pinned_of_places (u.homingDone_places .zoom), hp1 rfl],
            by rw [State.standby_of_apart (u.homingDone_apart .zoom), hs1], State.resolve_zoom _ hz0⟩
        · exact ⟨h1, hp1 rfl, hs1, rfl⟩
      generalize (if AxisId.zoom = .zoom ∧ u.zoom.settlingHome = true then u.homingDone .zoom else u) = v at hd
      obtain ⟨hv, hvp, hvs, hvz⟩ := hd
      have hh : v.zoom.state.homed = true := by
        have : u.zoom.state = .idle ∨ u.zoom.state = .settling := hst
        rw [hvz]
        rcases this with e | e <;> simp [e, AxisState.homed]
      refine State.startMove_law .zoom (fun _ => ⟨hh, hvp, hvs⟩) ?_
      exact State.setZoom_law _ _ rfl hv
    · exact State.startMove_law .focus (fun e => by cases e) h1
    · exact State.startMove_law .iris (fun e => by cases e) h1
  have same : (u.setAxis a ((u.axis a).retarget n .host)).RecordLaw := by
    cases a
    · exact State.setZoom_law _ _ rfl h1
    · exact h1
    · exact h1
  split
  · rename_i e; exact begin (.inl e)
  · rename_i e; exact begin (.inr e)
  · exact same
  · exact same
  · rename_i e
    split
    · rename_i ha
      subst ha
      have hw : u.zoom.state = .waitMap := e
      unfold State.waitingMove; dsimp only
      split
      · exact State.setZoom_law _ _ rfl h1
      · have hm : ((u.setTravel u.travel.endWait).setAxis .zoom
            { u.zoom with state := .moving, target := some n }).RecordLaw :=
          State.setZoom_homed_law (s := u.setTravel u.travel.endWait) _ (by simp [AxisState.homed]) (hp1 rfl) hs1 h1
        have hr := State.resolve_law .zoomStep hm
        refine State.decisionPoint_law .zoom ?_ hr
        have hz : (((u.setTravel u.travel.endWait).setAxis .zoom
            { u.zoom with state := .moving, target := some n }).resolve .zoomStep).zoom =
            { u.zoom with state := .moving, target := some n } :=
          State.resolve_zoom _ (by simp)
        change (State.zoom _).state.inTravel = true
        rw [hz]
        rfl
    · exact h1
  all_goals exact h1

theorem State.stopAxis_law (a : AxisId) (hs : s.standby = false) (h : s.RecordLaw) : (s.stopAxis a).RecordLaw := by
  have same : ∀ r : AxisRecord, r.state = (s.axis a).state → (s.setAxis a r).RecordLaw := by
    intro r hr
    cases a
    · exact State.setZoom_law _ _ hr h
    · exact h
    · exact h
  unfold State.stopAxis; dsimp only
  split
  · exact h
  · exact h
  · exact h
  · exact h
  · rename_i e
    exact State.setAxis_homed_law a _ (by simp [AxisState.homed])
      (State.mayStep_of_travel a h (by simp [e, AxisState.inTravel])) h
  · split
    · exact same _ rfl
    · exact h
  · rename_i e
    split
    · cases a
      · exact State.homing_law _ e h
      · exact h
      · exact h
    · split
      · exact same _ rfl
      · exact h
  · split
    · exact State.zoomEndWait_law _ hs h
    · exact h

theorem State.stopMove_law (a : AxisId) (hs : s.standby = false) (h : s.RecordLaw) : (s.stopMove a).RecordLaw := by
  have h1 := State.stopAxis_law a hs h
  unfold State.stopMove; dsimp only
  (repeat' split)
  · exact State.stopSweep_law h1
  · exact State.irisStopped_law h1
  · exact h1

theorem State.clearAxis_law (a : AxisId) (h : s.RecordLaw) : (s.clearAxis a).RecordLaw := by
  have same : ∀ u : State, u.RecordLaw → ∀ r : AxisRecord, r.state = (u.axis a).state → (u.setAxis a r).RecordLaw := by
    intro u hu r hr
    cases a
    · exact State.setZoom_law _ _ hr hu
    · exact hu
    · exact hu
  unfold State.clearAxis; dsimp only
  refine same _ ?_ _ rfl
  split
  · exact h
  · exact h
  · exact h
  · exact State.clearAxisRest_law a h
  · exact same s h _ rfl
  · split
    · exact State.homingDone_law a (State.clearAxisRest_law a h)
    · exact State.clearAxisRest_law a h
  · split
    · exact State.clearAxisRest_law (s := s.setTravel s.travel.endWait) a h
    · exact h
  · rename_i e
    split
    · cases a
      · exact State.homing_law _ e h
      · exact h
      · exact h
    · exact same s h _ rfl

theorem State.clearAxes_law (h : s.RecordLaw) : s.clearAxes.RecordLaw :=
  State.clearAxis_law _ (State.clearAxis_law _ (State.clearAxis_law _ h))

theorem State.standbyAxis_law (a : AxisId) (h : s.RecordLaw) : (s.standbyAxis a).RecordLaw := by
  have same : ∀ r : AxisRecord, r.state = (s.axis a).state → (s.setAxis a r).RecordLaw := by
    intro r hr
    cases a
    · exact State.setZoom_law _ _ hr h
    · exact h
    · exact h
  have idle : (s.setAxis a (s.axis a).rest.letGo).RecordLaw := by
    cases a
    · exact State.setZoom_rest_law _ (.inl rfl) h
    · exact h
    · exact h
  unfold State.standbyAxis; dsimp only
  split <;> first | exact same _ rfl | exact idle

theorem State.standbyAxes_law (h : s.RecordLaw) : s.standbyAxes.RecordLaw :=
  State.standbyAxis_law _ (State.standbyAxis_law _ (State.standbyAxis_law _ (State.deliverLoads_law _ h)))

theorem State.takePass_law (z : Vector ZoneResult 8) (h : s.RecordLaw) : (s.takePass z).RecordLaw := by
  unfold State.takePass; dsimp only
  split
  · exact State.lockFilledNotice_law (State.setExposure_law _ h)
  · exact h

theorem State.foldl_takePass_law (l : List (Vector ZoneResult 8)) (h : s.RecordLaw) :
    (l.foldl State.takePass s).RecordLaw := by
  induction l generalizing s with
  | nil => exact h
  | cons x l ih => exact ih (State.takePass_law x h)

theorem State.takeScenes_law (h : s.RecordLaw) : s.takeScenes.RecordLaw := State.foldl_takePass_law _ h

/-! ### The presses of the switch -/

theorem State.setMeter_law (m : MeterUnit) (h : s.RecordLaw) : (s.setMeter m).RecordLaw := h

theorem State.halfPressLock_law (h : s.RecordLaw) : s.halfPressLock.RecordLaw := by
  unfold State.halfPressLock; dsimp only
  (repeat' split) <;> first
    | exact State.setExposure_law _ h
    | exact State.setRelease_slots_law _ rfl (State.setExposure_law _ h)

theorem State.halfPressSweep_law (h : s.RecordLaw) : s.halfPressSweep.RecordLaw := by
  unfold State.halfPressSweep; dsimp only
  have h1 := State.takeHandoffs_law h
  split
  · exact State.setRelease_slots_law _ rfl h
  · rename_i hn
    obtain ⟨hr, hz⟩ := State.sweepRefusal_none hn h1
    split
    · exact State.setRelease_slots_law _ rfl (State.beginSweep_law _ _ hr hz h1)
    · exact State.setRelease_slots_law _ rfl (State.beginSweep_law _ _ hr hz h1)

theorem State.halfPress_law (h : s.RecordLaw) : s.halfPress.RecordLaw := by
  unfold State.halfPress; dsimp only
  have h1 : ∀ m, ((s.setRelease { s.release with
      sweepOwed := false, lockAwaited := false, awaitingFocus := false, sweepOutcome := none }).setMeter m).RecordLaw :=
    fun m => State.setMeter_law _ (State.setRelease_slots_law _ rfl h)
  have lock : ∀ u : State, u.RecordLaw → (if u.release.setup.aeLockOnHalf then u.halfPressLock else u).RecordLaw := by
    intro u hu; split
    · exact State.halfPressLock_law hu
    · exact hu
  have sweep : ∀ u : State, u.RecordLaw → (if u.release.setup.afOnHalf then u.halfPressSweep else u).RecordLaw := by
    intro u hu; split
    · exact State.halfPressSweep_law hu
    · exact hu
  have fin : ∀ u : State, u.RecordLaw →
      (if u.release.state = .finishing then u
        else u.setRelease { u.release with state := u.release.prepared }).RecordLaw := by
    intro u hu; split
    · exact hu
    · exact State.setRelease_slots_law _ rfl hu
  exact fin _ (sweep _ (lock _ (h1 _)))

theorem State.fullLetGo_law (h : s.RecordLaw) : s.fullLetGo.RecordLaw := by
  unfold State.fullLetGo; dsimp only
  (repeat' split) <;> first
    | exact h
    | exact State.cancelArm_law _ _ _ h
    | exact State.setRelease_slots_law _ rfl h

theorem State.halfLetGo_law (h : s.RecordLaw) : s.halfLetGo.RecordLaw := by
  unfold State.halfLetGo; dsimp only
  split
  · exact State.setRelease_slots_law _ rfl (State.releaseSweep_law (State.setExposure_law _ h))
  · exact State.setRelease_slots_law _ rfl (State.setExposure_law _ h)

/-! ### Standby and waking -/

theorem State.standbyRelease_law (h : s.RecordLaw) : s.standbyRelease.RecordLaw := by
  unfold State.standbyRelease; dsimp only
  refine State.setRelease_slots_law _ rfl ?_
  split
  · exact State.halfLetGo_law (State.fullLetGo_law h)
  · exact State.halfLetGo_law h
  · exact h

theorem State.finishEntry_law (h : s.RecordLaw) : s.finishEntry.RecordLaw := by
  unfold State.finishEntry; dsimp only
  split
  · exact State.standbyRelease_law (State.takeScenes_law (s := (s.standbyAxes.setMeter _).setEntering false) (State.standbyAxes_law h))
  · exact h

theorem State.setStandby_law (h : s.RecordLaw) : (s.setStandby false).RecordLaw := by
  obtain ⟨h1, h2, h3, h4, _⟩ := h
  exact ⟨h1, h2, h3, h4, fun hb => by cases hb⟩

theorem State.wakeUp_law (h : s.RecordLaw) : s.wakeUp.RecordLaw := by
  unfold State.wakeUp; dsimp only
  have h1 := State.resolve_law .wake (State.setStandby_law (State.finishEntry_law h))
  split
  · exact State.flushStab_law _ h1
  · exact h1

theorem State.pressHalf_law (h : s.RecordLaw) : s.pressHalf.RecordLaw := by
  unfold State.pressHalf
  split
  · exact State.halfPress_law (State.setRelease_slots_law _ rfl (State.wakeUp_law h))
  · exact State.halfPress_law h

theorem State.pressBoth_law (h : s.RecordLaw) : s.pressBoth.RecordLaw :=
  State.fullPress_law (State.setRelease_slots_law _ rfl (State.pressHalf_law h))

theorem State.positionChanged_law (a b : SwitchPosition) (h : s.RecordLaw) : (s.positionChanged a b).RecordLaw := by
  unfold State.positionChanged
  split
  · exact State.pressHalf_law h
  · exact State.fullPress_law h
  · exact State.pressBoth_law h
  · exact State.fullLetGo_law h
  · exact State.halfLetGo_law (State.fullLetGo_law h)
  · exact State.halfLetGo_law h
  all_goals exact h

/-! ### CLEAR and STANDBY -/

theorem SweepUnit.clear_runs (w : SweepUnit) : w.clear.record.state.runs = false := by
  unfold SweepUnit.clear
  split
  · rfl
  · rename_i h; simpa using h

theorem State.clearResolver_law (hs : s.standby = false) (hl : s.RecordLaw) : s.clearResolver.RecordLaw := by
  obtain ⟨_, _, _, h4, _⟩ := hl
  have h' : (s.setResolver ({ s.resolver with
      slotPin := false, sweepPin := false, deferred := false } : Resolver).applyPending).RecordLaw ∧
      (s.setResolver ({ s.resolver with
      slotPin := false, sweepPin := false, deferred := false } : Resolver).applyPending).resolver.pinned = false := by
    unfold Resolver.applyPending
    split
    · refine ⟨⟨fun hp => ?_, fun hp => ?_, fun hp => ?_, h4, fun hb => ?_⟩, rfl⟩
      · cases hp
      · cases hp
      · cases hp
      · have hb' : s.standby = true := hb
        simp [hs] at hb'
    · refine ⟨⟨fun hp => ?_, fun hp => ?_, fun hp => ?_, h4, fun hb => ?_⟩, rfl⟩
      · cases hp
      · cases hp
      · cases hp
      · have hb' : s.standby = true := hb
        simp [hs] at hb'
  exact State.resolveHere_law (s := s.setResolver _) _ h'.2 hs h'.1

theorem State.clearResolver_places (s : State) : s.clearResolver.places = (false, false) := by
  unfold State.clearResolver; dsimp only
  simp only [State.postDrain_eq, State.setHandoffs_places, State.resolveHere_places]
  unfold Resolver.applyPending
  split <;> rfl

@[simp] theorem State.clearAxis_places (s : State) (a : AxisId) : (s.clearAxis a).places = s.places := by
  unfold State.clearAxis State.clearAxisRest State.applyOwed State.internalMove; dsimp only
  (repeat' split) <;> simp

/-- CLEAR's parts at the blocks that keep to themselves, once the pins are dropped. -/
theorem State.clearRecords_law (hp : s.places = (false, false)) (h : s.RecordLaw) : s.clearRecords.RecordLaw := by
  obtain ⟨h1, _, _, h4, h5⟩ := h
  have e1 : s.resolver.slotPin = false := congrArg (·.1) hp
  have e2 : s.resolver.sweepPin = false := congrArg (·.2) hp
  refine ⟨h1, fun hq => ?_, fun hq => ?_, h4, h5⟩
  · have hq' : s.resolver.slotPin = true := hq
    simp [e1] at hq'
  · have hq' : s.resolver.sweepPin = true := hq
    simp [e2] at hq'

theorem State.clearParts_law (a b c : Bool) (hs : s.standby = false) (h : s.RecordLaw) : (s.clearParts a b c).RecordLaw := by
  have hres : ∀ u : State, u.standby = false → u.RecordLaw → u.clearResolver.RecordLaw :=
    fun u h1 h2 => State.clearResolver_law h1 h2
  have deliver : ∀ u : State, u.RecordLaw → (if b then u.deliverLoads else u).RecordLaw := by
    intro u hu; split
    · exact State.deliverLoads_law u hu
    · exact hu
  have deliverStandby : ∀ u : State, (if b then u.deliverLoads else u).standby = u.standby := by
    intro u; split
    · exact State.standby_of_apart u.deliverLoads_apart
    · rfl
  have axesStandby : ∀ u : State, u.clearAxes.standby = u.standby := fun u => State.standby_of_apart u.clearAxes_apart
  have last : ∀ u : State, u.places = (false, false) → u.RecordLaw →
      ((if c then u.clearRecords.flushStab else u.clearRecords).setStab
        (if c then u.clearRecords.flushStab else u.clearRecords).stab.clear).RecordLaw := by
    intro u hu hl
    split
    · exact State.flushStab_law _ (State.clearRecords_law hu hl)
    · exact State.clearRecords_law hu hl
  unfold State.clearParts; dsimp only
  cases a
  · simp only [Bool.false_eq_true, if_false]
    refine last _ (State.clearResolver_places _) (hres _ ?_ (State.clearAxes_law (deliver _ h)))
    rw [axesStandby, deliverStandby, hs]
  · simp only [if_true]
    refine last _ ?_ (State.clearAxes_law (deliver _ (hres _ hs h)))
    have e : (if b then s.clearResolver.deliverLoads else s.clearResolver).places = (false, false) := by
      split
      · have key : ∀ (l : List TrackLoad) (u : State), (l.foldl State.track u).places = u.places := by
          intro l
          induction l with
          | nil => intro u; rfl
          | cons x l ih =>
            intro u
            rw [List.foldl_cons, ih]
            unfold State.track State.internalMove; dsimp only
            (repeat' split) <;> simp
        unfold State.deliverLoads
        rw [key]
        exact State.clearResolver_places s
      · exact State.clearResolver_places s
    simpa [State.clearAxes] using e

theorem State.mayStandby_unpinned (h : s.mayStandby = true) (hl : s.RecordLaw) : s.resolver.pinned = false := by
  simp only [State.mayStandby, Bool.and_eq_true, Bool.not_eq_true'] at h
  obtain ⟨_, h2, h3, _, _⟩ := hl
  have e1 : s.resolver.slotPin = false := by
    by_contra hc
    obtain ⟨i, hi⟩ := (Release.anyActive_iff _).1 (h2 (by simpa using hc))
    have hf := h.1.2
    simp only [Release.allFree, List.all_eq_true, decide_eq_true_eq] at hf
    have := hf (s.release.slots[i]) (by simp)
    change (s.release.slots[i]).state.active = true at hi
    rw [this] at hi
    cases hi
  have e2 : s.resolver.sweepPin = false := by
    by_contra hc
    have := h3 (by simpa using hc)
    simp [h.1.1.1.2] at this
  simp [Resolver.pinned, e1, e2]

/-- A state that is unresolved, unpinned and at rest meets the laws, in standby too. -/
theorem State.quiet_law (h1 : s.places = (false, false)) (h2 : s.resolver.record.resolved = false)
    (h3 : s.zoom.state.resting = true) : s.RecordLaw := by
  have e1 : s.resolver.slotPin = false := congrArg (·.1) h1
  have e2 : s.resolver.sweepPin = false := congrArg (·.2) h1
  refine ⟨fun hq => ?_, fun hq => ?_, fun hq => ?_, fun hq => ?_, fun _ => ⟨h2, h3⟩⟩
  · simp [Resolver.pinned, e1, e2] at hq
  · simp [e1] at hq
  · simp [e2] at hq
  · simp [h2] at hq

@[simp] theorem State.track_resolver (l : TrackLoad) : (s.track l).resolver = s.resolver := by
  unfold State.track State.internalMove; dsimp only
  (repeat' split) <;> rfl

@[simp] theorem State.track_zoom (l : TrackLoad) : (s.track l).zoom = s.zoom := by
  unfold State.track State.internalMove; dsimp only
  (repeat' split) <;> rfl

theorem State.foldl_track_keeps (l : List TrackLoad) (u : State) :
    (l.foldl State.track u).resolver = u.resolver ∧ (l.foldl State.track u).zoom = u.zoom := by
  induction l generalizing u with
  | nil => exact ⟨rfl, rfl⟩
  | cons x l ih => rw [List.foldl_cons, (ih _).1, (ih _).2, State.track_resolver, State.track_zoom]; exact ⟨rfl, rfl⟩

@[simp] theorem State.deliverLoads_resolver : s.deliverLoads.resolver = s.resolver := (State.foldl_track_keeps _ _).1
@[simp] theorem State.deliverLoads_zoom : s.deliverLoads.zoom = s.zoom := (State.foldl_track_keeps _ _).2

@[simp] theorem State.standbyAxis_resolver (a : AxisId) : (s.standbyAxis a).resolver = s.resolver := by
  unfold State.standbyAxis; dsimp only
  split <;> cases a <;> rfl

@[simp] theorem State.standbyAxis_other (a : AxisId) (h : a ≠ .zoom) : (s.standbyAxis a).zoom = s.zoom := by
  unfold State.standbyAxis; dsimp only
  cases a <;> simp at h <;> split <;> rfl

theorem State.standbyAxis_resting (h : s.zoom.state.resting = true) :
    ((s.standbyAxis .zoom).zoom).state = s.zoom.state := by
  unfold State.standbyAxis; dsimp only [State.axis]
  cases hs : s.zoom.state <;> simp [hs, AxisState.resting] at h <;> exact hs

@[simp] theorem State.standbyAxes_resolver : s.standbyAxes.resolver = s.resolver := by
  simp only [State.standbyAxes, State.standbyAxis_resolver, State.deliverLoads_resolver]

theorem State.standbyAxes_resting (h : s.zoom.state.resting = true) : s.standbyAxes.zoom.state = s.zoom.state := by
  unfold State.standbyAxes
  rw [State.standbyAxis_other _ (by decide), State.standbyAxis_other _ (by decide), State.standbyAxis_resting,
    State.deliverLoads_zoom]
  rw [State.deliverLoads_zoom]; exact h

@[simp] theorem State.standbyStab_resolver : s.standbyStab.resolver = s.resolver := rfl
@[simp] theorem State.standbyStab_zoom : s.standbyStab.zoom = s.zoom := rfl

/-- Passes reach the record and ZOOM not at all. -/
theorem State.takeScenes_keeps (u : State) : u.takeScenes.resolver = u.resolver ∧ u.takeScenes.zoom = u.zoom := by
  have one : ∀ (x : State) (z : Vector ZoneResult 8),
      (x.takePass z).resolver = x.resolver ∧ (x.takePass z).zoom = x.zoom := by
    intro x z; unfold State.takePass; dsimp only; split <;> exact ⟨rfl, rfl⟩
  have key : ∀ (l : List (Vector ZoneResult 8)) (x : State),
      (l.foldl State.takePass x).resolver = x.resolver ∧ (l.foldl State.takePass x).zoom = x.zoom := by
    intro l
    induction l with
    | nil => intro x; exact ⟨rfl, rfl⟩
    | cons z l ih => intro x; rw [List.foldl_cons, (ih _).1, (ih _).2]; exact one x z
  exact key _ _

theorem State.enterStandby_law (c : StandbyScope) (hm : s.mayStandby = true) (h : s.RecordLaw) :
    (s.enterStandby c).RecordLaw := by
  have hp := State.mayStandby_unpinned hm h
  have hz : s.zoom.state.resting = true := by
    simp only [State.mayStandby, Bool.and_eq_true] at hm
    exact hm.1.1.1.1.1.1
  obtain ⟨k1, k2⟩ := State.takeScenes_keeps s
  unfold State.enterStandby; dsimp only
  refine State.quiet_law ?_ rfl ?_
  · simp only [Resolver.pinned, Bool.or_eq_false_iff] at hp
    have e1 : s.takeScenes.resolver.slotPin = false := by rw [k1]; exact hp.1
    have e2 : s.takeScenes.resolver.sweepPin = false := by rw [k1]; exact hp.2
    exact Prod.ext e1 e2
  · have e3 : s.takeScenes.zoom.state.resting = true := by rw [k2]; exact hz
    exact e3

end Sys2Proof.Machine
end

