-- ==== Sys2Proof/Laws/Release.lean ====
section
/-! SUPPORT. The release's laws (R151, R158, R164) under every shared operation: the held sum of a changed slot, and one lemma
`_safe` per operation that says that the laws are kept. -/

namespace Sys2Proof.Machine

variable {s : State} {r q : Release}

/-! ### The held sum (R151) -/

theorem sum_set_add {α : Type} (f : α → Nat) (l : List α) (n : Nat) (h : n < l.length) (x : α) :
    ((l.set n x).map f).sum + f l[n] = (l.map f).sum + f x := by
  induction l generalizing n with
  | nil => simp at h
  | cons y l ih =>
    cases n with
    | zero => simp; omega
    | succ n =>
      have := ih n (by simpa using h)
      simp at this ⊢; omega

/-- A replaced slot takes its share of the held sum away and adds its own. -/
theorem Release.heldSum_setSlot (r : Release) (i : Fin 12) (x : Slot) :
    (r.setSlot i x).heldSum + (r.slots[i]).held = r.heldSum + x.held := by
  have h := sum_set_add Slot.held r.slots.toList i.val (by simp) x
  have e : (r.setSlot i x).slots.toList = r.slots.toList.set i.val x := by
    rw [Release.setSlot_slots, put, Vector.toList_set]
  have e2 : r.slots[i] = r.slots.toList[i.val]'(by simp) := by simp
  rw [Release.heldSum, e, e2]
  exact h

theorem Release.heldSum_congr (h : r.slots = q.slots) : r.heldSum = q.heldSum := by rw [Release.heldSum, Release.heldSum, h]

theorem Release.held_le (r : Release) (i : Fin 12) : (r.slots[i]).held ≤ r.heldSum := by
  have := r.heldSum_setSlot i ⟨.free, none, none, none, none, none, false⟩
  simp only [Slot.held] at this ⊢
  omega

/-! ### Records with the same slots -/

/-- The laws depend on the slots, the store and the exposure control's slot alone. -/
theorem Release.Law.same (h : r.Law) (h1 : q.slots = r.slots) (h2 : q.storeFree = r.storeFree)
    (h3 : q.control.armed = r.control.armed ∨ q.control.armed = none) : q.Law := by
  obtain ⟨a, b, c⟩ := h
  refine ⟨by rw [h1]; exact a, fun i hi => ?_, by rw [Release.heldSum_congr h1, h2]; exact c⟩
  rw [h1]
  rcases h3 with h3 | h3
  · exact b i (by rw [← h3]; exact hi)
  · rw [h3] at hi; cases hi

/-- A slot that keeps its activity, and holds no more than fits, keeps the laws. -/
theorem Release.Law.setSlot_same (h : r.Law) (i : Fin 12) (x : Slot) (ha : x.state.active = (r.slots[i]).state.active)
    (hf : r.heldSum + x.held ≤ r.storeFree + (r.slots[i]).held) : (r.setSlot i x).Law := by
  obtain ⟨a, b, c⟩ := h
  have act : ∀ j : Fin 12, ((r.setSlot i x).slots[j]).state.active = (r.slots[j]).state.active := by
    intro j
    rw [Release.setSlot_slots, put_get]
    split
    · rename_i e; rw [ha, e]
    · rfl
  refine ⟨fun j k hj hk => a j k (by rw [← act]; exact hj) (by rw [← act]; exact hk), fun j hj => ?_, ?_⟩
  · rw [act]; exact b j hj
  · have := r.heldSum_setSlot i x
    have e : (r.setSlot i x).storeFree = r.storeFree := rfl
    omega

/-- A slot that ends up inactive, with the exposure control cleared, keeps the laws. -/
theorem Release.Law.setSlot_idle (h : r.Law) (i : Fin 12) (x : Slot) (ha : x.state.active = false)
    (hf : x.held ≤ (r.slots[i]).held) : ((r.setSlot i x).clearControl).Law := by
  obtain ⟨a, b, c⟩ := h
  have act : ∀ j : Fin 12, ((r.setSlot i x).slots[j]).state.active = true → (r.slots[j]).state.active = true := by
    intro j hj
    rw [Release.setSlot_slots, put_get] at hj
    split at hj
    · rw [ha] at hj; cases hj
    · exact hj
  refine ⟨fun j k hj hk => a j k (act j hj) (act k hk), fun j hj => absurd hj (by simp [Release.clearControl, ExposureControl.cleared]), ?_⟩
  have := r.heldSum_setSlot i x
  have e : ((r.setSlot i x).clearControl).heldSum = (r.setSlot i x).heldSum := Release.heldSum_congr rfl
  have e2 : ((r.setSlot i x).clearControl).storeFree = r.storeFree := rfl
  omega

theorem Release.Law.clearControl (h : r.Law) : r.clearControl.Law := h.same rfl rfl (Or.inr rfl)
theorem Release.Law.closeShutter (h : r.Law) : r.closeShutter.Law := h.same rfl rfl (Or.inl rfl)
theorem Release.Law.endBurst (e : EndReason) (h : r.Law) : (r.endBurst e).Law := h.same rfl rfl (Or.inl rfl)
theorem Release.Law.refuseArm (e : Result) (h : r.Law) : (r.refuseArm e).Law := h.same rfl rfl (Or.inl rfl)
theorem Release.Law.beginBurst (h : r.Law) : r.beginBurst.Law := h.same rfl rfl (Or.inl rfl)
theorem Release.Law.readyIfDone (h : r.Law) : r.readyIfDone.Law := by
  unfold Release.readyIfDone; split
  · exact h.same rfl rfl (Or.inl rfl)
  · exact h
theorem Release.Law.finish (i : Fin 12) (h : r.Law) : (r.finish i).Law := by
  unfold Release.finish; split
  · exact h.same rfl rfl (Or.inl rfl)
  · exact h
theorem Release.Law.nextShot (i : Fin 12) (h : r.Law) : (r.nextShot i).Law := by
  unfold Release.nextShot; (repeat' split)
  · exact h.endBurst _
  · exact h.same rfl rfl (Or.inl rfl)
  · exact h.same rfl rfl (Or.inl rfl)
  · exact h

/-- The release after CLEAR (R173). -/
theorem Release.clear_safe (r : Release) (p : Pins) : (r.clear p).Law := by
  refine ⟨fun i j hi => ?_, fun i hi => absurd hi (by simp [Release.clear, Release.clearControl, ExposureControl.cleared]), ?_⟩
  · have e : (r.clear p).slots = Vector.replicate 12 Slot.cleared := rfl
    rw [e] at hi
    simp [Slot.cleared, SlotState.active] at hi
  · have e : (r.clear p).heldSum = 0 := by
      have : (r.clear p).slots = Vector.replicate 12 Slot.cleared := rfl
      rw [Release.heldSum, this]; rfl
    rw [e]; exact Nat.zero_le _

/-! ### The shared operations -/

/-- The slot that the exposure control names is taken to EXPOSING (R160). -/
theorem State.startExposure_safe (i : Fin 12) (t : Slot) (ht : t = s.release.slots[i]) (ha : t.state = .armed)
    (h : s.release.Law) : (s.startExposure i t).release.Law := by
  refine Release.Law.same (r := s.release.setSlot i { t with state := .exposing, focus := s.focus.position }) ?_ rfl rfl
    (Or.inl rfl)
  refine h.setSlot_same i _ ?_ ?_
  · rw [← ht, ha]; rfl
  · have := h.2.2
    rw [← ht]
    simp only [Slot.held, ha]
    omega

theorem State.tryExposure_safe (h : s.release.Law) : s.tryExposure.release.Law := by
  unfold State.tryExposure; dsimp only; (repeat' split)
  · exact h
  · rename_i hx; exact State.startExposure_safe _ _ rfl hx.1 h
  · exact h

theorem State.irisSettled_safe (h : s.release.Law) : s.irisSettled.release.Law := by
  unfold State.irisSettled; dsimp only; (repeat' split)
  · exact h
  · exact State.tryExposure_safe (s := s.setRelease _) (h.same rfl rfl (Or.inl rfl))
  · exact h

theorem State.letSlotGo_release (s : State) : s.letSlotGo.release = s.release :=
  State.release_of_others (State.letSlotGo_others s)

theorem State.cancelArm_safe (i : Fin 12) (e : Option Result) (x : EndReason) (h : s.release.Law) :
    (s.cancelArm i e x).release.Law := by
  unfold State.cancelArm; dsimp only
  rw [State.letSlotGo_release]
  have h1 := h.setSlot_idle i Slot.cleared rfl (Nat.zero_le _)
  refine Release.Law.finish i ?_
  split
  · exact Release.Law.endBurst _ (h1.same rfl rfl (Or.inl rfl))
  · exact h1.same rfl rfl (Or.inl rfl)

theorem State.irisStopped_safe (h : s.release.Law) : s.irisStopped.release.Law := by
  unfold State.irisStopped; (repeat' split)
  · exact h
  · exact State.cancelArm_safe _ _ _ h
  · exact h

/-- A slot found FREE by the search is FREE. -/
theorem Release.firstFree_free {i : Fin 12} (h : r.firstFree = some i) : (r.slots[i]).state = .free := by
  have := List.find?_some h
  simpa using this

theorem State.armSlot_safe (o : ShotOrigin) (b : Nat) (x : Solution) (i : Fin 12) (hn : s.release.anyActive = false)
    (hi : (s.release.slots[i]).state = .free)
    (hf : s.release.heldSum + s.release.reservationFor x.solved.gain ≤ s.release.storeFree) :
    (s.armSlot o b x i).release.Law := by
  unfold State.armSlot; dsimp only
  have e : ((s.setAxis .iris { s.iris with ownership := .exposure }).internalMove
      .iris x.solved.iris .exposure).release = s.release :=
    (State.release_of_others (State.internalMove_others _ _ _ _)).trans rfl
  rw [e]
  have none' : ∀ j : Fin 12, (s.release.slots[j]).state.active = false := by
    intro j
    cases hj : (s.release.slots[j]).state.active
    · rfl
    · rw [(Release.anyActive_iff _).2 ⟨j, hj⟩] at hn; cases hn
  have only : ∀ (y : Slot) (j : Fin 12), ((s.release.setSlot i y).slots[j]).state.active = true → j = i := by
    intro y j hj
    rw [Release.setSlot_slots, put_get] at hj
    split at hj
    · rename_i e; exact e.symm
    · rw [none' j] at hj; cases hj
  refine ⟨fun j k hj hk => (only _ j hj).trans (only _ k hk).symm, fun j hj => ?_, ?_⟩
  · cases hj
    change ((put s.release.slots i _)[i]).state.active = true
    rw [put_get]; simp [SlotState.active]
  · have := s.release.heldSum_setSlot i ⟨.armed, some (s.shotFor o b x), none, none,
      some (s.release.reservationFor x.solved.gain), none, false⟩
    simp only [Slot.held, hi] at this
    refine Nat.le_trans ?_ hf
    refine Nat.le_of_eq ?_
    exact this

/-- What an arm that passes its checks has found in the release. -/
theorem State.armChecks_release {x : Solution × Fin 12} (e : s.armChecks.2 = .ok x) :
    s.release.anyActive = false ∧ (s.release.slots[x.2]).state = .free ∧
      s.release.heldSum + s.release.reservationFor x.1.solved.gain ≤ s.release.storeFree := by
  unfold State.armChecks at e
  (repeat' split at e) <;> try (cases e; done)
  rename_i hn _ i hfree hf
  cases e
  exact ⟨by simpa using hn, Release.firstFree_free hfree, hf⟩

theorem State.takeReports_release (s : State) : s.takeReports.release = s.release :=
  State.release_of_others (State.takeReports_others s)

theorem State.takeHandoffs_release (s : State) : s.takeHandoffs.release = s.release := by
  unfold State.takeHandoffs
  exact (State.release_of_others (State.deliverLoads_others _)).trans (State.takeReports_release s)

theorem State.arm_safe (o : ShotOrigin) (b : Nat) (h : s.release.Law) : (s.arm o b).1.release.Law := by
  have hb : (if s.takeReports.resolver.record.resolved then s.takeReports else s).release = s.release := by
    split
    · exact State.takeReports_release s
    · rfl
  have h' : s.takeReports.release.Law := by rw [State.takeReports_release]; exact h
  unfold State.arm; dsimp only
  split
  · exact h
  · rename_i x e
    split
    · exact h'
    · rename_i ek
      obtain ⟨-, rfl⟩ := State.askPin_eq ek
      have c := State.armChecks_release e
      rw [hb, ← State.takeReports_release s] at c
      exact State.armSlot_safe (s := (s.takeReports.setExposure _).setResolver _) _ _ _ _ c.1 c.2.1 c.2.2

theorem State.armBurst_safe (h : s.release.Law) : s.armBurst.release.Law := by
  unfold State.armBurst; dsimp only
  have h1 := State.arm_safe .switch s.release.burst.shotsArmed h
  split
  · exact h1.refuseArm _
  · exact h1.same rfl rfl (Or.inl rfl)

theorem State.fullPress_safe (h : s.release.Law) : s.fullPress.release.Law := by
  unfold State.fullPress; dsimp only
  (repeat' split)
  all_goals first
    | exact h
    | exact State.armBurst_safe (s := s.setRelease _) h.beginBurst

theorem State.slotFreed_safe (h : s.release.Law) : s.slotFreed.release.Law := by
  unfold State.slotFreed; split
  · exact State.armBurst_safe (s := s.setRelease _) (h.same rfl rfl (Or.inl rfl))
  · exact h

theorem State.sweepOutcomeNotice_safe (o : SweepOutcome) (h : s.release.Law) : (s.sweepOutcomeNotice o).release.Law := by
  unfold State.sweepOutcomeNotice; dsimp only
  (repeat' split)
  all_goals refine Release.Law.readyIfDone ?_
  · exact State.armBurst_safe (s := State.setRelease _ _) (h.same rfl rfl (Or.inl rfl))
  · exact Release.Law.refuseArm _ (h.same rfl rfl (Or.inl rfl))
  · exact h.same rfl rfl (Or.inl rfl)
  · exact h

theorem State.lockFilledNotice_safe (h : s.release.Law) : s.lockFilledNotice.release.Law :=
  Release.Law.readyIfDone (h.same rfl rfl (Or.inl rfl))

theorem State.closeSweep_release (o : SweepOutcome) : (s.closeSweep o).release = s.release := by
  unfold State.closeSweep; dsimp only
  exact (State.release_of_others (State.releasePin_others _ _)).trans rfl

theorem State.endSweep_safe (o : SweepOutcome) (h : s.release.Law) : (s.endSweep o).release.Law := by
  unfold State.endSweep; dsimp only
  split
  · exact (congrArg Release.Law (State.closeSweep_release o)).mpr h
  · exact State.sweepOutcomeNotice_safe o ((congrArg Release.Law (State.closeSweep_release o)).mpr h)

theorem State.sweepAtRest_safe (h : s.release.Law) : s.sweepAtRest.release.Law := by
  unfold State.sweepAtRest; dsimp only; split
  all_goals first
    | exact State.endSweep_safe _ h
    | exact h

theorem State.applyOwed_release (s : State) : s.applyOwed.release = s.release :=
  State.release_of_others (State.applyOwed_others s)
theorem State.homingDone_release (s : State) (a : AxisId) : (s.homingDone a).release = s.release :=
  State.release_of_others (State.homingDone_others s a)

theorem State.settleExpired_safe (a : AxisId) (h : s.release.Law) : (s.settleExpired a).release.Law := by
  have h1 : ((s.setAxis a (s.axis a).settled).release).Law := by rw [State.setAxis_release]; exact h
  unfold State.settleExpired; dsimp only
  cases a
  · dsimp only; split
    · rw [State.homingDone_release]; exact h1
    · exact h1
  · dsimp only
    rw [State.applyOwed_release]
    have h2 : ∀ u : State, u.release.Law → (if (s.axis .focus).mover = some .sweep then u.sweepAtRest else u).release.Law := by
      intro u hu; split
      · exact State.sweepAtRest_safe hu
      · exact hu
    refine h2 _ ?_
    split
    · rw [State.homingDone_release]; exact h1
    · exact h1
  · dsimp only; split
    · exact State.irisSettled_safe h1
    · exact h1

theorem State.settleNow_safe (a : AxisId) (h : s.release.Law) : (s.settleNow a).release.Law := by
  unfold State.settleNow; split
  · exact State.settleExpired_safe a h
  · exact h

theorem State.settleZero_safe (h : s.release.Law) : s.settleZero.release.Law :=
  State.settleNow_safe _ (State.settleNow_safe _ (State.settleNow_safe _ h))

/-! ### Decision points, moves and stops -/

theorem State.clearAxisRest_safe (a : AxisId) (h : s.release.Law) : (s.clearAxisRest a).release.Law := by
  unfold State.clearAxisRest; dsimp only; split
  · rw [State.applyOwed_release, State.setAxis_release]; exact h
  · rw [State.setAxis_release]; exact h

theorem State.decisionPoint_safe (a : AxisId) (h : s.release.Law) : (s.decisionPoint a).release.Law := by
  unfold State.decisionPoint; dsimp only
  (repeat' split)
  · rw [State.setAxis_release]; exact h
  · exact State.clearAxisRest_safe a (by rw [State.setAxis_release]; exact h)
  · rw [State.setAxis_release]; exact h
  · rw [State.release_of_others (State.stepAxis_others s a)]; exact h

theorem State.homingDecision_release (s : State) (a : AxisId) (b : Bool) : (s.homingDecision a b).release = s.release := by
  unfold State.homingDecision; rw [State.setAxis_release]
theorem State.readHome_release' (s : State) (a : AxisId) (b : Bool) : (s.readHome a b).release = s.release := by
  cases a <;> rfl

theorem State.decideAxis_safe (a : AxisId) (b : Bool) (h : s.release.Law) : (s.decideAxis a b).release.Law := by
  unfold State.decideAxis; split
  · rw [State.homingDecision_release, State.readHome_release']; exact h
  · exact State.decisionPoint_safe a h
  · exact State.decisionPoint_safe a h
  all_goals exact h

theorem State.beginHoming_release (s : State) (a : AxisId) (b : Bool) : (s.beginHoming a b).release = s.release := by
  have e : ((s.setAxis a (s.axis a).startHoming).reportHoming a).release = s.release := by
    cases a
    · exact (State.release_of_others (State.unresolve_others _)).trans rfl
    · rfl
    · rfl
  unfold State.beginHoming; dsimp only; split
  · rw [State.setAxis_release, e]
  · rw [State.homingDecision_release, State.readHome_release', e]

theorem State.hostMove_safe (a : AxisId) (n : Nat) (h : s.release.Law) : (s.hostMove a n).release.Law := by
  have e : (s.dropOwed a).release = s.release := by cases a <;> rfl
  unfold State.hostMove; dsimp only
  have b : ∀ t : State, t.release = s.release → (t.beginHostMove a n).release.Law := by
    intro t ht
    unfold State.beginHostMove; dsimp only
    rw [State.release_of_others (State.startMove_others _ _), State.setAxis_release]
    split
    · rw [State.homingDone_release, ht]; exact h
    · rw [ht]; exact h
  have w : ∀ t : State, t.release = s.release → (t.waitingMove n).release.Law := by
    intro t ht
    unfold State.waitingMove; dsimp only
    split
    · rw [State.setAxis_release, ht]; exact h
    · refine State.decisionPoint_safe _ ?_
      rw [State.release_of_others (State.resolve_others _ _), State.setAxis_release]
      exact (congrArg Release.Law ht).mpr h
  split
  · exact b _ e
  · exact b _ e
  · rw [State.setAxis_release, e]; exact h
  · rw [State.setAxis_release, e]; exact h
  · split
    · exact w _ e
    · rw [e]; exact h
  all_goals rw [e]; exact h

theorem State.stopAxis_release (s : State) (a : AxisId) : (s.stopAxis a).release = s.release := by
  unfold State.stopAxis; dsimp only
  (repeat' split)
  all_goals first
    | rfl
    | rw [State.setAxis_release]
    | exact State.release_of_others (State.zoomEndWait_others _ _)

theorem State.stopSweep_safe (h : s.release.Law) : s.stopSweep.release.Law := by
  unfold State.stopSweep; split
  all_goals first
    | exact h
    | exact State.endSweep_safe _ h

theorem State.stopMove_safe (a : AxisId) (h : s.release.Law) : (s.stopMove a).release.Law := by
  have h1 : (s.stopAxis a).release.Law := by rw [State.stopAxis_release]; exact h
  unfold State.stopMove; dsimp only; (repeat' split)
  · exact State.stopSweep_safe h1
  · exact State.irisStopped_safe h1
  · exact h1

/-! ### The sweep -/

theorem State.nextStop_release (s : State) : s.nextStop.1.release = s.release := by
  unfold State.nextStop; dsimp only; split
  · exact (State.release_of_others (State.internalMove_others _ _ _ _)).trans rfl
  · rfl

theorem State.beginSweep_release (s : State) (o : SweepOrigin) (p : SweepParams) : (s.beginSweep o p).1.release = s.release := by
  have e : (s.openSweep o p).nextStop.1.release = s.release := (State.nextStop_release _).trans rfl
  unfold State.beginSweep; dsimp only; split
  · exact e
  · rw [State.closeSweep_release]; exact e

theorem State.judge_safe (n : Nat) (h : s.release.Law) : (s.judge n).1.release.Law := by
  unfold State.judge; dsimp only
  (repeat' split)
  · exact State.endSweep_safe _ h
  · exact State.endSweep_safe _ h
  · rw [State.release_of_others (State.internalMove_others _ _ _ _)]; exact h
  · rw [State.nextStop_release]; exact h
  · exact State.endSweep_safe _ (by rw [State.nextStop_release]; exact h)

/-! ### The presses -/

theorem State.halfPressLock_safe (h : s.release.Law) : s.halfPressLock.release.Law := by
  unfold State.halfPressLock; dsimp only; (repeat' split) <;> exact h

theorem State.halfPressSweep_safe (h : s.release.Law) : s.halfPressSweep.release.Law := by
  have h1 : s.takeHandoffs.release.Law := by rw [State.takeHandoffs_release]; exact h
  have h2 : (s.takeHandoffs.beginSweep .half s.takeHandoffs.sweep.preset).1.release.Law := by
    rw [State.beginSweep_release]; exact h1
  unfold State.halfPressSweep; dsimp only; (repeat' split)
  · exact h
  · exact h2
  · exact h2

theorem State.halfPress_safe (h : s.release.Law) : s.halfPress.release.Law := by
  have a : ∀ t : State, t.release.Law → (if t.release.setup.aeLockOnHalf then t.halfPressLock else t).release.Law := by
    intro t ht; split
    · exact State.halfPressLock_safe ht
    · exact ht
  have b : ∀ t : State, t.release.Law → (if t.release.setup.afOnHalf then t.halfPressSweep else t).release.Law := by
    intro t ht; split
    · exact State.halfPressSweep_safe ht
    · exact ht
  have c : ∀ t : State, t.release.Law →
      (if t.release.state = .finishing then t else t.setRelease { t.release with state := t.release.prepared }).release.Law := by
    intro t ht; split <;> exact ht
  exact c _ (b _ (a _ h))

theorem State.fullLetGo_safe (h : s.release.Law) : s.fullLetGo.release.Law := by
  unfold State.fullLetGo; dsimp only; (repeat' split)
  all_goals first
    | exact h
    | exact State.cancelArm_safe _ _ _ h

theorem State.halfLetGo_safe (h : s.release.Law) : s.halfLetGo.release.Law := by
  unfold State.halfLetGo State.releaseSweep; dsimp only; (repeat' split) <;> exact h

theorem State.flushStab_release (s : State) : s.flushStab.release = s.release := rfl

theorem State.standbyAxis_release (s : State) (a : AxisId) : (s.standbyAxis a).release = s.release := by
  unfold State.standbyAxis; dsimp only
  split <;> rw [State.setAxis_release]

theorem State.standbyAxes_release (s : State) : s.standbyAxes.release = s.release := by
  unfold State.standbyAxes
  rw [State.standbyAxis_release, State.standbyAxis_release, State.standbyAxis_release]
  exact (State.release_of_others (State.deliverLoads_others _)).trans rfl

theorem State.takePass_safe (z : Vector ZoneResult 8) (h : s.release.Law) : (s.takePass z).release.Law := by
  unfold State.takePass; dsimp only; split
  · exact State.lockFilledNotice_safe (s := s.setExposure _) h
  · exact h

theorem State.takeScenes_safe (h : s.release.Law) : s.takeScenes.release.Law := by
  have key : ∀ (l : List (Vector ZoneResult 8)) (x : State), x.release.Law → (l.foldl State.takePass x).release.Law := by
    intro l
    induction l with
    | nil => intro x hx; exact hx
    | cons z l ih => intro x hx; exact ih _ (State.takePass_safe z hx)
  exact key _ _ h

theorem State.standbyRelease_safe (h : s.release.Law) : s.standbyRelease.release.Law := by
  unfold State.standbyRelease; dsimp only
  split
  · exact State.halfLetGo_safe (State.fullLetGo_safe h)
  · exact State.halfLetGo_safe h
  · exact h

theorem State.finishEntry_safe (h : s.release.Law) : s.finishEntry.release.Law := by
  unfold State.finishEntry; dsimp only; split
  · refine State.standbyRelease_safe (State.takeScenes_safe (s := (s.standbyAxes.setMeter _).setEntering false) ?_)
    change s.standbyAxes.release.Law
    rw [State.standbyAxes_release]; exact h
  · exact h

theorem State.wakeUp_safe (h : s.release.Law) : s.wakeUp.release.Law := by
  have e : ((s.finishEntry.setStandby false).resolve .wake).release = s.finishEntry.release :=
    (State.release_of_others (State.resolve_others _ _)).trans rfl
  have h' : ((s.finishEntry.setStandby false).resolve .wake).release.Law := by
    rw [e]; exact State.finishEntry_safe h
  unfold State.wakeUp; dsimp only
  generalize (s.finishEntry.setStandby false).resolve .wake = v at h'
  split
  · exact h'
  · exact h'

theorem State.pressHalf_safe (h : s.release.Law) : s.pressHalf.release.Law := by
  unfold State.pressHalf; split
  · exact State.halfPress_safe (s := State.setRelease _ _) ((State.wakeUp_safe h).same rfl rfl (Or.inl rfl))
  · exact State.halfPress_safe h

theorem State.pressBoth_safe (h : s.release.Law) : s.pressBoth.release.Law :=
  State.fullPress_safe (s := State.setRelease _ _) ((State.pressHalf_safe h).same rfl rfl (Or.inl rfl))

theorem State.positionChanged_safe (a b : SwitchPosition) (h : s.release.Law) : (s.positionChanged a b).release.Law := by
  unfold State.positionChanged; split
  · exact State.pressHalf_safe h
  · exact State.fullPress_safe h
  · exact State.pressBoth_safe h
  · exact State.fullLetGo_safe h
  · exact State.halfLetGo_safe (State.fullLetGo_safe h)
  · exact State.halfLetGo_safe h
  all_goals exact h

/-! ### Operations that leave the release alone -/

theorem State.resolve_safe (m : MissSource) (h : s.release.Law) : (s.resolve m).release.Law := by
  rw [State.release_of_others (State.resolve_others s m)]; exact h
theorem State.examine_safe (x : Report) (h : s.release.Law) : (s.examine x).release.Law := by
  rw [State.release_of_others (State.examine_others s x)]; exact h
theorem State.drained_safe (h : s.release.Law) : s.drained.release.Law := by
  rw [State.release_of_others (State.drained_others s)]; exact h
theorem State.zoomEndWait_safe (e : Ending) (h : s.release.Law) : (s.zoomEndWait e).release.Law := by
  rw [State.release_of_others (State.zoomEndWait_others s e)]; exact h
theorem State.track_safe (l : TrackLoad) (h : s.release.Law) : (s.track l).release.Law := by
  rw [State.release_of_others (State.track_others s l)]; exact h
theorem State.takeHandoffs_safe (h : s.release.Law) : s.takeHandoffs.release.Law := by
  rw [State.takeHandoffs_release]; exact h
theorem State.beginHoming_safe (a : AxisId) (b : Bool) (h : s.release.Law) : (s.beginHoming a b).release.Law := by
  rw [State.beginHoming_release]; exact h
theorem State.beginSweep_safe (o : SweepOrigin) (p : SweepParams) (h : s.release.Law) : (s.beginSweep o p).1.release.Law := by
  rw [State.beginSweep_release]; exact h

/-! ### The end of an exposure, and slots given up -/

theorem State.endExposure_safe (i : Fin 12) (hi : (s.release.slots[i]).state.active = true) (h : s.release.Law) :
    (s.endExposure i).release.Law := by
  unfold State.endExposure; dsimp only
  rw [State.letSlotGo_release]
  refine Release.Law.finish i (Release.Law.nextShot i ?_)
  refine Release.Law.setSlot_idle (r := s.release.closeShutter) h.closeShutter i _ rfl ?_
  have e : s.release.closeShutter.slots[i] = s.release.slots[i] := rfl
  change Slot.held { s.release.slots[i] with state := .exposed, marks := _, notice := true } ≤ _
  rw [e]
  generalize s.release.slots[i] = x at hi
  obtain ⟨st, _, _, _, _, _, _⟩ := x
  cases st
  all_goals first
    | exact Nat.le_refl _
    | cases hi

theorem State.discardActive_safe (i : Fin 12) (h : s.release.Law) : (s.discardActive i).release.Law := by
  unfold State.discardActive; dsimp only
  rw [State.letSlotGo_release]
  exact Release.Law.finish i (Release.Law.nextShot i (h.setSlot_idle i Slot.cleared rfl (Nat.zero_le _)))

theorem State.discard_safe (i : Fin 12) (h : s.release.Law) : (s.discard i).release.Law := by
  unfold State.discard; split
  · exact State.discardActive_safe i h
  · exact State.discardActive_safe (s := (s.setRelease s.release.closeShutter).setStab s.stab.exposureEnd) i h
  all_goals first
    | exact h
    | (rename_i e
       refine State.slotFreed_safe (h.setSlot_same i Slot.cleared ?_ ?_)
       · rw [e]; rfl
       · have := h.2.2
         simp only [Slot.held, Slot.cleared]; omega)

/-! ### CLEAR and standby -/

theorem State.clearAxis_safe (a : AxisId) (h : s.release.Law) : (s.clearAxis a).release.Law := by
  unfold State.clearAxis; dsimp only
  rw [State.setAxis_release]
  split
  all_goals first
    | exact h
    | exact State.clearAxisRest_safe a h
    | (rw [State.setAxis_release]; exact h)
    | skip
  · split
    · rw [State.homingDone_release]; exact State.clearAxisRest_safe a h
    · exact State.clearAxisRest_safe a h
  · split
    · exact State.clearAxisRest_safe (s := s.setTravel s.travel.endWait) a h
    · exact h
  · split <;> (rw [State.setAxis_release]; exact h)

theorem State.clearParts_safe (a b c : Bool) (s : State) : (s.clearParts a b c).release.Law := by
  unfold State.clearParts; dsimp only
  split <;> exact Release.clear_safe _ _

theorem State.standbyStab_release (s : State) : s.standbyStab.release = s.release := rfl

theorem State.enterStandby_safe (c : StandbyScope) (h : s.release.Law) : (s.enterStandby c).release.Law := by
  have h' := State.takeScenes_safe h
  unfold State.enterStandby; dsimp only
  generalize s.takeScenes = v at h'
  rw [State.standbyStab_release, State.setResolver_release, State.setMap_release]
  exact h'

end Sys2Proof.Machine
end

