-- ==== Sys2Proof/Laws/Units.lean ====
section
/-! SUPPORT. Sums of the scene (07), samples of the Stabilizer (08), and the searches of the release (09). -/

set_option linter.all false

namespace Sys2Proof.Machine

/-- The weighted sums of a pass (R123). -/
theorem weightedSums_eq (wt : Vector Nat 8) (zs : Vector ZoneResult 8) : weightedSums wt zs =
   (((List.finRange 8).map fun z => if (zs[z]).status ∈ [ZoneStatus.ok, .over, .under] then wt[z] else 0).sum,
    ((List.finRange 8).map fun z => wt[z] * (match (zs[z]).status with
      | .ok => (zs[z]).value.getD 0
      | .over => 384
      | .under => 63
      | _ => 0)).sum) := by
  have e : ∀ {α} (v : Vector α 8), v.toList = (List.finRange 8).map fun z => v[z] := by
    intro α v
    apply List.ext_getElem
    · simp
    · intro i h1 h2; simp
  unfold weightedSums
  rw [e wt, e zs, List.zip_map']
  generalize List.finRange 8 = l
  induction l with
  | nil => rfl
  | cons a l ih =>
    simp only [List.map, List.foldr, ih, List.sum_cons]
    unfold ZoneResult.used
    cases h : (zs[a]).status <;> simp [Config.overValue, Config.underValue]

/-- The test that points rise (R128). -/
theorem rising_iff : ∀ l : List Point, rising l = true ↔ List.IsChain (fun x y : Point => x.evFrom < y.evFrom) l
  | [] => by simp [rising]
  | [x] => by simp [rising]
  | x :: y :: l => by simp [rising, rising_iff (y :: l)]

/-- A number brought within bounds, by least and greatest. -/
theorem clampInt_eq (l h x : Int) (hl : l ≤ h) : clampInt l h x = max l (min h x) := by
  unfold clampInt; split
  · omega
  · split <;> omega

/-- A sample on one axis of the Stabilizer, as the statements say it. -/
theorem ShiftAxis.sample_of_sampled {x : ShiftAxis} {th g rate y p} (h : x.sampled th g rate y p) : x.sample th g rate = (y, p) := by
  unfold ShiftAxis.sample
  cases hp : x.panning
  · have h2 := h.2 hp _ rfl
    rw [if_neg (by simp)]
    unfold ShiftAxis.steadySample; dsimp only
    by_cases hf : 50 ≤ (if th < rate.natAbs then x.fast + 1 else 0)
    · obtain ⟨e1, e2⟩ := h2.1 hf
      rw [if_pos (show Config.panSamples ≤ _ from hf), e1, e2]
    · obtain ⟨e1, e2⟩ := h2.2 (by omega) _ _ rfl rfl
      rw [if_neg (show ¬ Config.panSamples ≤ _ from hf)]
      unfold ShiftAxis.integrate; dsimp only
      have c1 : ∀ z, clampInt (-Config.integratorLimit) Config.integratorLimit z = max (-8388607) (min 8388607 z) := fun z => clampInt_eq _ _ _ (by decide)
      have c2 : ∀ z, clampInt (-Config.shiftLimit) Config.shiftLimit z = max (-600) (min 600 z) := fun z => clampInt_eq _ _ _ (by decide)
      rw [c1, c2, e2]
      refine Prod.ext rfl ?_
      dsimp only
      rw [Bool.eq_iff_iff, e1, decide_eq_true_eq]
      have : Config.shiftLimit = 600 := rfl
      rw [this]; omega
  · obtain ⟨e1, e2⟩ := h.1 hp
    rw [if_pos rfl, e1, e2]; rfl

/-- A position moved toward the centre (R142). -/
theorem towardCentre_eq {p y : Int} (h : y.natAbs = p.natAbs - 4 ∧ (0 < y → 0 < p) ∧ (y < 0 → p < 0)) : towardCentre p = y := by
  unfold towardCentre; split
  · omega
  · split <;> omega

/-- ACTIVE left while an exposure is open, written out (R145). -/
theorem Stabilizer.leaveActive_eq (t : Stabilizer) : t.leaveActive = { t with leftActive := (t.leftActive || (t.exposureOpen && decide (t.state = .active))) } := by
  unfold Stabilizer.leaveActive
  split
  · rename_i h; simp [h.1, h.2]
  · rename_i h
    obtain ⟨_, _, st, _, _, _, _, _, _, eo, _, _⟩ := t
    cases st <;> cases eo <;> simp_all

/-- The active slot states, as a list. -/
theorem SlotState.active_iff (x : SlotState) : x.active = true ↔ x ∈ [SlotState.armed, .exposing] := by cases x <;> simp [SlotState.active]

/-- The lowest FREE slot is found. -/
theorem Release.firstFree_eq_some {r : Release} {i : Fin 12} (h : (r.slots[i]).state = .free) (hl : ∀ j : Fin 12, j < i → (r.slots[j]).state ≠ .free) :
    r.firstFree = some i := by
  unfold Release.firstFree
  rw [List.find?_eq_some_iff_getElem]
  refine ⟨by simpa using h, i.val, by simp, by simp, fun j hj => ?_⟩
  have := hl ⟨j, by omega⟩ hj
  simpa using this

/-- No slot is FREE. -/
theorem Release.firstFree_eq_none {r : Release} (h : ∀ j : Fin 12, (r.slots[j]).state ≠ .free) : r.firstFree = none := by
  unfold Release.firstFree
  rw [List.find?_eq_none]
  intro x _; simpa using h x

/-- Hand-offs put back as they are change nothing. -/
theorem State.setHandoffs_same {s : State} {x : Handoffs} (h : x = s.handoffs) : s.setHandoffs x = s := by subst h; rfl

/-- With no report in flight nothing is taken. -/
theorem State.takeReports_id {s : State} (h1 : s.handoffs.reports = []) : s.takeReports = s := by
  unfold State.takeReports
  rw [h1]
  exact State.setHandoffs_same (by rw [← h1])

/-- With no load in flight nothing is taken. -/
theorem State.deliverLoads_id {s : State} (h2 : s.handoffs.loads = []) : s.deliverLoads = s := by
  unfold State.deliverLoads
  rw [h2]
  exact State.setHandoffs_same (by rw [← h2])

/-- With nothing in flight nothing is taken. -/
theorem State.takeHandoffs_id {s : State} (h1 : s.handoffs.reports = []) (h2 : s.handoffs.loads = []) : s.takeHandoffs = s := by
  unfold State.takeHandoffs
  rw [State.takeReports_id h1, State.deliverLoads_id h2]

/-- With no pass handed over nothing is taken. -/
theorem State.takeScenes_id {s : State} (h : s.handoffs.scenes = []) : s.takeScenes = s := by
  unfold State.takeScenes
  rw [h]
  exact State.setHandoffs_same (by rw [← h])

/-- With no notice in flight the Stabilizer takes nothing. -/
theorem State.flushStab_id {s : State} (h : s.handoffs.stab = []) : s.flushStab = s := by
  unfold State.flushStab
  rw [State.setHandoffs_same (by rw [h]; exact congrArg (fun l => { s.handoffs with stab := l }) h.symm), h]
  rfl

/-- Outside an entry to standby nothing waits to be finished. -/
theorem State.finishEntry_id {s : State} (h : s.entering = false) : s.finishEntry = s := by
  unfold State.finishEntry
  rw [h]; rfl

end Sys2Proof.Machine
end

