-- ==== Sys2Proof/Laws/Keeps.lean ====
section
/-! SUPPORT. What the shared operations can change, said once: reports in flight, the release beside the resolver's operations,
passes, notices, the switch let go, internal moves and stops (02, 03, 07, 08, 09). -/

set_option linter.all false

namespace Sys2Proof.Machine

/-- A resolution makes no report. -/
@[simp] theorem State.resolve_reports (s : State) (m : MissSource) : (s.resolve m).handoffs.reports = s.handoffs.reports := by
  have u : ∀ t : State, t.unresolve.handoffs.reports = t.handoffs.reports := by
    intro t; unfold State.unresolve; split <;> rfl
  have w : ∀ (t : State) q, (t.writeMiss q m).handoffs.reports = t.handoffs.reports := by
    intro t q; exact u t
  have v : ∀ (t : State) q m, (t.writeMiss q m).handoffs.reports = t.handoffs.reports := by
    intro t q m; exact u t
  have h : ∀ (t : State) m, (t.resolveHere m).handoffs.reports = t.handoffs.reports := by
    intro t m
    unfold State.resolveHere State.resolveBand; dsimp only
    repeat' split
    · rfl
    · exact v _ _ _
    · exact u _
  unfold State.resolve State.resolveWaiting
  repeat' split
  · rfl
  · rfl
  · rfl
  · exact (h _ _).trans rfl
  · exact v _ _ _
  · exact h _ _
  · exact h _ _

/-- An examination of a report makes none. -/
@[simp] theorem State.examine_reports (s : State) (r : Report) : (s.examine r).handoffs.reports = s.handoffs.reports := by
  unfold State.examine
  repeat' split
  all_goals simp

/-- Once taken, no report is in flight. -/
theorem State.takeReports_reports (s : State) : s.takeReports.handoffs.reports = [] := by
  unfold State.takeReports
  have : ∀ (l : List Report) (t : State), (l.foldl State.examine t).handoffs.reports = t.handoffs.reports := by
    intro l
    induction l with
    | nil => intro t; rfl
    | cons x l ih => intro t; exact (ih _).trans (by simp)
  exact this _ _

/-- The release does not bear on unresolving the record. -/
theorem State.setRelease_unresolve (v : State) (q : Release) : (v.setRelease q).unresolve = v.unresolve.setRelease q := by
  rw [State.unresolve_eq, State.unresolve_eq]; rfl

/-- The release does not bear on a miss. -/
theorem State.setRelease_writeMiss (v : State) (q : Release) (p m) : (v.setRelease q).writeMiss p m
    = (v.writeMiss p m).setRelease q := by
  rw [State.writeMiss_eq, State.writeMiss_eq]; rfl

/-- The release does not bear on a lookup. -/
theorem State.setRelease_resolveBand (v : State) (q : Release) (b m) : (v.setRelease q).resolveBand b m
    = (v.resolveBand b m).setRelease q := by
  have e : ∀ x : State, x.resolveBand b m = (match x.map.lookup ⟨x.resolver.context, b⟩ with
    | some i => x.load i ⟨x.resolver.context, b⟩
    | none => x.writeMiss ⟨x.resolver.context, b⟩ m) := fun _ => rfl
  rw [e, e]
  show (match v.map.lookup ⟨v.resolver.context, b⟩ with
    | some i => (v.load i ⟨v.resolver.context, b⟩).setRelease q
    | none => (v.setRelease q).writeMiss ⟨v.resolver.context, b⟩ m) = _
  rw [State.setRelease_writeMiss]
  cases v.map.lookup ⟨v.resolver.context, b⟩ <;> rfl

/-- The release does not bear on a lookup at the position. -/
theorem State.setRelease_resolveHere (v : State) (q : Release) (m) : (v.setRelease q).resolveHere m
    = (v.resolveHere m).setRelease q := by
  have e : ∀ x : State, x.resolveHere m = (match x.zoomBand with
    | some b => x.resolveBand b m
    | none => x.unresolve) := fun _ => rfl
  rw [e, e]
  show (match v.zoomBand with
    | some b => (v.setRelease q).resolveBand b m
    | none => (v.setRelease q).unresolve) = _
  rw [State.setRelease_unresolve]; simp only [State.setRelease_resolveBand]
  cases v.zoomBand <;> rfl

/-- The release does not bear on a crossing lookup. -/
theorem State.setRelease_resolveWaiting (v : State) (q : Release) (b m) : (v.setRelease q).resolveWaiting b m
    = (v.resolveWaiting b m).setRelease q := by
  have e : ∀ x : State, x.resolveWaiting b m = (match x.crossingLookup b with
    | .permitted i =>
      let t := x.load i ⟨x.resolver.context, b⟩
      (t.setTravel t.travel.endWait).setAxis .zoom
        ({ t.zoom with lastDirection := x.travel.crossing.getD t.zoom.lastDirection }.countedStep)
    | .forbidden => (x.setTravel x.travel.endWait).zoomForbidden.resolveHere .zoomStep
    | .missed => x.writeMiss ⟨x.resolver.context, b⟩ m) := fun _ => rfl
  rw [e, e]
  show (match v.crossingLookup b with
    | .permitted i =>
      let t := (v.load i ⟨v.resolver.context, b⟩).setRelease q
      (t.setTravel t.travel.endWait).setAxis .zoom
        ({ t.zoom with lastDirection := v.travel.crossing.getD t.zoom.lastDirection }.countedStep)
    | .forbidden => (((v.setTravel v.travel.endWait).zoomForbidden).setRelease q).resolveHere .zoomStep
    | .missed => (v.setRelease q).writeMiss ⟨v.resolver.context, b⟩ m) = _
  rw [State.setRelease_writeMiss, State.setRelease_resolveHere]
  cases v.crossingLookup b <;> rfl

/-- The release does not bear on a resolution. -/
theorem State.setRelease_resolve (v : State) (q : Release) (m : MissSource) : (v.setRelease q).resolve m
    = (v.resolve m).setRelease q := by
  have e : ∀ x : State, x.resolve m = (if x.resolver.pinned then x.setResolver { x.resolver with deferred := true }
  else if x.standby then x
  else if x.zoom.state = .waitMap then
    match x.travel.bandWaited with
    | some b => x.resolveWaiting b m
    | none => x.resolveHere m
  else x.resolveHere m) := fun _ => rfl
  rw [e, e]
  show (if v.resolver.pinned then (v.setResolver { v.resolver with deferred := true }).setRelease q
  else if v.standby then v.setRelease q
  else if v.zoom.state = .waitMap then
    match v.travel.bandWaited with
    | some b => (v.setRelease q).resolveWaiting b m
    | none => (v.setRelease q).resolveHere m
  else (v.setRelease q).resolveHere m) = _
  rw [State.setRelease_resolveHere]; simp only [State.setRelease_resolveWaiting]
  cases v.travel.bandWaited <;> split <;> first | rfl | (split <;> first | rfl | (split <;> rfl))

/-- The release does not bear on the release of a pin. -/
theorem State.setRelease_releasePin (v : State) (q : Release) (h) : (v.setRelease q).releasePin h
    = (v.releasePin h).setRelease q := by
  have g : ∀ x : State, (x.setRelease q).pinsGone = x.pinsGone.setRelease q := by
    intro x
    have e : ∀ x : State, x.pinsGone = (if x.resolver.applyPending.deferred
        then ((x.setResolver x.resolver.applyPending).setResolver { x.resolver.applyPending with deferred := false }).resolve .context else x.setResolver x.resolver.applyPending).postDrain := fun _ => rfl
    rw [e, e]
    show (if x.resolver.applyPending.deferred
        then ((((x.setResolver x.resolver.applyPending).setResolver { x.resolver.applyPending with deferred := false })).setRelease q).resolve .context else (x.setResolver x.resolver.applyPending).setRelease q).postDrain = _
    rw [State.setRelease_resolve]
    cases x.resolver.applyPending.deferred <;> rfl
  have e : ∀ x : State, x.releasePin h = (if x.resolver.holdsPin h then
    (match h with
    | .slot => (if (x.resolver.setPin h false).pinned then x.setResolver (x.resolver.setPin h false)
        else (x.setResolver (x.resolver.setPin h false)).pinsGone).postPin
    | .sweep => (if (x.resolver.setPin h false).pinned then x.setResolver (x.resolver.setPin h false)
        else (x.setResolver (x.resolver.setPin h false)).pinsGone))
  else x) := by intro x; cases h <;> rfl
  rw [e, e]
  cases h
  · show (if v.resolver.holdsPin .slot then (if (v.resolver.setPin .slot false).pinned
      then (v.setResolver (v.resolver.setPin .slot false)).setRelease q
          else ((v.setResolver (v.resolver.setPin .slot false)).setRelease q).pinsGone).postPin else v.setRelease q) = _
    rw [g]
    cases v.resolver.holdsPin .slot
    · rfl
    · cases (v.resolver.setPin .slot false).pinned <;> rfl
  · show (if v.resolver.holdsPin .sweep then (if (v.resolver.setPin .sweep false).pinned
      then (v.setResolver (v.resolver.setPin .sweep false)).setRelease q
          else ((v.setResolver (v.resolver.setPin .sweep false)).setRelease q).pinsGone) else v.setRelease q) = _
    rw [g]
    cases v.resolver.holdsPin .sweep
    · rfl
    · cases (v.resolver.setPin .sweep false).pinned <;> rfl

/-- What a pass can change: the exposure unit, and the state and the awaited lock of the release. -/
theorem State.takePass_form (s : State) (z) : ∃ e st la, s.takePass z
    = (s.setExposure e).setRelease { s.release with state := st, lockAwaited := la } := by
  unfold State.takePass State.lockFilledNotice Release.readyIfDone; dsimp only
  split
  · split
    · exact ⟨_, .ready, false, rfl⟩
    · exact ⟨_, s.release.state, false, rfl⟩
  · exact ⟨(ExposureUnit.fillLock { s.exposure with scene := s.exposure.newScene z s.resolver.record }).1, s.release.state, s.release.lockAwaited, rfl⟩

/-- What several passes can change. -/
theorem State.foldl_takePass_form (l : List (Vector ZoneResult 8)) : ∀ (s : State), ∃ e st la, l.foldl State.takePass s
    = (s.setExposure e).setRelease { s.release with state := st, lockAwaited := la } := by
  induction l with
  | nil => intro s; exact ⟨s.exposure, s.release.state, s.release.lockAwaited, rfl⟩
  | cons z l ih =>
    intro s
    obtain ⟨e, st, la, h⟩ := State.takePass_form s z
    obtain ⟨e', st', la', h'⟩ := ih (s.takePass z)
    refine ⟨e', st', la', ?_⟩
    show l.foldl State.takePass (s.takePass z) = _
    rw [h', h]; rfl

/-- What the passes in flight can change. -/
theorem State.takeScenes_form (s : State) : ∃ e st la, s.takeScenes
    = ((s.setHandoffs { s.handoffs with scenes := [] }).setExposure e).setRelease { s.release with state := st, lockAwaited := la } :=
  State.foldl_takePass_form _ _

/-- Every slot is FREE. -/
theorem Release.allFree_iff (r : Release) : r.allFree = true ↔ ∀ i : Fin 12, (r.slots[i]).state = .free := by
  unfold Release.allFree
  rw [List.all_eq_true]
  constructor
  · intro h i; simpa using h (r.slots[i]) (by simp)
  · intro h x hx
    obtain ⟨i, hi, e⟩ := List.getElem_of_mem hx
    have hi2 : i < 12 := by simpa using hi
    have := h ⟨i, hi2⟩
    simp only [← e, decide_eq_true_eq]
    simpa using this

/-- Notices leave the setup of the Stabilizer alone. -/
theorem Stabilizer.foldl_onNotice_setup (l : List StabNotice) : ∀ t : Stabilizer, (l.foldl Stabilizer.onNotice t).enabled
    = t.enabled ∧ (l.foldl Stabilizer.onNotice t).panThreshold = t.panThreshold := by
  induction l with
  | nil => intro t; exact ⟨rfl, rfl⟩
  | cons a l ih =>
    intro t
    have := ih (t.onNotice a)
    refine ⟨this.1.trans ?_, this.2.trans ?_⟩ <;> cases a
    · show (t.onLoad _).enabled = _; unfold Stabilizer.onLoad; dsimp only; split <;> rfl
    · show (t.onUnresolved).enabled = _
      unfold Stabilizer.onUnresolved Stabilizer.leaveActive; dsimp only; split <;> (try split) <;> rfl
    · show (t.onLoad _).panThreshold = _; unfold Stabilizer.onLoad; dsimp only; split <;> rfl
    · show (t.onUnresolved).panThreshold = _
      unfold Stabilizer.onUnresolved Stabilizer.leaveActive; dsimp only; split <;> (try split) <;> rfl

/-- Notices leave a Stabilizer that is off off. -/
theorem Stabilizer.foldl_onNotice_off (l : List StabNotice) : ∀ t : Stabilizer, t.state = .off → (l.foldl Stabilizer.onNotice t).state = .off := by
  induction l with
  | nil => intro t h; exact h
  | cons a l ih =>
    intro t h
    refine ih (t.onNotice a) ?_
    cases a
    · show (t.onLoad _).state = _; unfold Stabilizer.onLoad; dsimp only; rw [h]; simp [h]
    · show (t.onUnresolved).state = _; unfold Stabilizer.onUnresolved; dsimp only; rw [h]

/-- FULL let go leaves the Exposure Unit and the Stabilizer alone. -/
theorem State.fullLetGo_keeps (s : State) : s.fullLetGo.exposure = s.exposure ∧ s.fullLetGo.stab = s.stab := by
  have cancel : ∀ i, (s.cancelArm i none .released).exposure = s.exposure ∧ (s.cancelArm i none .released).stab = s.stab := by
    intro i
    have e := s.letSlotGo_others
    exact ⟨(show _ = s.letSlotGo.exposure from rfl).trans (State.exposure_of_others e),
      (show _ = s.letSlotGo.stab from rfl).trans (State.stab_of_others e)⟩
  unfold State.fullLetGo; dsimp only; (repeat' split)
  all_goals first
    | exact ⟨rfl, rfl⟩
    | exact cancel _

/-- HALF let go ends the AE lock and leaves the Stabilizer alone (R169). -/
theorem State.halfLetGo_keeps (s : State) :
    s.halfLetGo.exposure = { s.exposure with lock := .none } ∧ s.halfLetGo.stab = s.stab := by
  unfold State.halfLetGo State.releaseSweep; dsimp only; (repeat' split) <;> exact ⟨rfl, rfl⟩

/-- The release's part of standby entry: a pressed switch loses its AE lock (R174). -/
theorem State.standbyRelease_keeps (s : State) :
    s.standbyRelease.exposure =
      (if s.release.position = .none then s.exposure else { s.exposure with lock := .none }) ∧
    s.standbyRelease.stab = s.stab := by
  unfold State.standbyRelease; dsimp only
  cases s.release.position
  · exact ⟨rfl, rfl⟩
  · exact s.halfLetGo_keeps
  · obtain ⟨h1, h2⟩ := s.fullLetGo.halfLetGo_keeps
    obtain ⟨k1, k2⟩ := s.fullLetGo_keeps
    exact ⟨h1.trans (by rw [k1]; rfl), h2.trans k2⟩

/-- A resolution leaves FOCUS and IRIS alone. -/
theorem State.resolve_focus_iris (s : State) (m) : (s.resolve m).focus = s.focus ∧ (s.resolve m).iris = s.iris := by
  have h1 : ∀ (v : State), v.unresolve.focus = v.focus ∧ v.unresolve.iris
      = v.iris := by intro v; rw [State.unresolve_eq]; exact ⟨rfl, rfl⟩
  have h2 : ∀ (v : State) q n, (v.writeMiss q n).focus = v.focus ∧ (v.writeMiss q n).iris
      = v.iris := by intro v q n; rw [State.writeMiss_eq]; exact ⟨rfl, rfl⟩
  have h3 : ∀ (v : State) n, (v.resolveHere n).focus = v.focus ∧ (v.resolveHere n).iris = v.iris := by
    intro v n; exact ⟨State.resolveHere_axis .focus, State.resolveHere_axis .iris⟩
  unfold State.resolve State.resolveWaiting; dsimp only
  split
  · exact ⟨rfl, rfl⟩
  · split
    · exact ⟨rfl, rfl⟩
    · split
      · split
        · split
          · exact ⟨rfl, rfl⟩
          · exact h3 _ _
          · exact h2 _ _ _
        · exact h3 _ _
      · exact h3 _ _

/-- An internal move keeps the profile, the completion and the ownership. -/
theorem AxisRecord.internal_keeps (r : AxisRecord) (n m) : (r.internal n m).profile = r.profile ∧ (r.internal n m).completion
    = r.completion ∧ (r.internal n m).ownership = r.ownership := by
  have hs : ∀ x : AxisRecord, x.settle.profile = x.profile ∧ x.settle.completion = x.completion ∧ x.settle.ownership
      = x.ownership := fun x => ⟨rfl, rfl, rfl⟩
  have hso : ∀ x : AxisRecord, x.stepOn.profile = x.profile ∧ x.stepOn.completion = x.completion ∧ x.stepOn.ownership
      = x.ownership := by
    intro x
    have : x.reversed.profile = x.profile ∧ x.reversed.completion = x.completion ∧ x.reversed.ownership = x.ownership := by
      unfold AxisRecord.reversed; split <;> exact ⟨rfl, rfl, rfl⟩
    unfold AxisRecord.stepOn; dsimp only; split
    · exact this
    · exact this
  unfold AxisRecord.internal AxisRecord.startPlain
  split
  · split
    · exact ⟨rfl, rfl, rfl⟩
    · split
      · exact hso _
      · exact ⟨rfl, rfl, rfl⟩
  · split
    · exact ⟨rfl, rfl, rfl⟩
    · split
      · exact hso _
      · exact ⟨rfl, rfl, rfl⟩
  all_goals exact ⟨rfl, rfl, rfl⟩

/-- A stop that is not yet pending is set pending, written out. -/
theorem State.setAxis_stopPending (s : State) (a) : (if (s.axis a).stopPending = .none
    then s.setAxis a { s.axis a with stopPending := .stop } else s)
        = s.setAxis a { s.axis a with stopPending := if (s.axis a).stopPending = .none then .stop else (s.axis a).stopPending } := by
  split
  · rfl
  · exact (State.setAxis_self s a).symm

/-- A stop of a moving axis. -/
theorem State.stopAxis_moving (s : State) (a) (hs : (s.axis a).state = .moving) : s.stopAxis a
    = s.setAxis a { s.axis a with stopPending := if (s.axis a).stopPending = .none then .stop else (s.axis a).stopPending } := by
  rw [← State.setAxis_stopPending]; unfold State.stopAxis; dsimp only; rw [hs]

/-- A stop of an axis that homes with its coils driven. -/
theorem State.stopAxis_homing (s : State) (a) (hs : (s.axis a).state = .homing) (hw : (s.axis a).wakeTimer
    = none) : s.stopAxis a
        = s.setAxis a { s.axis a with stopPending := if (s.axis a).stopPending = .none then .stop else (s.axis a).stopPending } := by
  rw [← State.setAxis_stopPending]; unfold State.stopAxis; dsimp only; rw [hs, hw]; rfl

/-- The last point at or below an EV. -/
theorem choosePoint_eq_some (prog : List Point) (v : Int) (i : Nat) (x : Point) (hi : prog[i]? = some x) (hx : x.evFrom ≤ v)
   (h : ∀ j y, i < j → prog[j]? = some y → v < y.evFrom) : choosePoint prog v = some (i + 1, x.settings) := by
  unfold choosePoint
  have hi' : i < prog.length := by rw [List.getElem?_eq_some_iff] at hi; exact hi.1
  have : prog.zipIdx 1 = (prog.take i).zipIdx 1 ++ [(x, i+1)] ++ (prog.drop (i+1)).zipIdx (i + 2) := by
    have e : prog = prog.take i ++ [x] ++ prog.drop (i+1) := by
      have := List.getElem?_eq_some_iff.1 hi
      obtain ⟨h1, h2⟩ := this
      subst h2; simp
    conv_lhs => rw [e]
    rw [List.zipIdx_append, List.zipIdx_append]
    simp [Nat.min_eq_left (Nat.le_of_lt hi'), Nat.add_comm]
    rw [show 1 + (i + 1) = i + 2 by omega]
  rw [this, List.filter_append, List.filter_append]
  have e2 : ((prog.drop (i+1)).zipIdx (i + 2)).filter (fun q => decide (q.1.evFrom ≤ v)) = [] := by
    rw [List.filter_eq_nil_iff]
    intro q hq
    obtain ⟨k, hk, rfl⟩ := List.getElem_of_mem hq
    simp at hk ⊢
    exact h (i + 1 + k) _ (by omega) (by rw [List.getElem?_eq_getElem (by omega)])
  rw [e2]
  simp [hx]
end Sys2Proof.Machine
end

