-- ==== Sys2Proof/Laws/Table.lean ====
section
/-! SUPPORT. The lens map as a table (01): searches, conflicts, and the laws of the map under an update, a drain and an arrival. -/

set_option linter.all false

namespace Sys2Proof.Machine

/-- One place of a table changed alike. -/
theorem mapTable_get {α β : Type} {n : Nat} (f : α → β) (v : Vector α n) (i : Fin n) : (mapTable f v)[i] = f v[i] := by
  simp [mapTable]

/-- Tables with the same places are the same table. -/
theorem table_ext {α} {n} {v w : Vector α n} (h : ∀ i : Fin n, v[i] = w[i]) : v = w := by
  apply Vector.ext; intro i hi; exact h ⟨i, hi⟩

/-- The search answers the lowest index that meets the test. -/
theorem LensMap.find_eq_some {m : LensMap} {t : Fin 32 → Entry → Bool} {i : Fin 32} (h : t i m.entries[i] = true)
    (hl : ∀ j, j < i → t j m.entries[j] = false) : m.find t = some i := by
  unfold LensMap.find
  rw [List.find?_eq_some_iff_getElem]
  refine ⟨h, i.val, by simp, by simp, ?_⟩
  intro j hj
  have := hl ⟨j, by omega⟩ (by simpa [Fin.lt_def] using hj)
  simpa using this

/-- The search answers nothing exactly when no entry meets the test. -/
theorem LensMap.find_eq_none {m : LensMap} {t : Fin 32 → Entry → Bool} : m.find t = none ↔ ∀ i, t i m.entries[i] = false := by
  unfold LensMap.find
  simp

/-- With nothing pinned no update is held. -/
theorem State.holds_unpinned {s : State} (hp : s.resolver.pinned = false) (u : Update) : s.map.holds s.resolver u = false := by
  simp [LensMap.holds, hp]

/-- An update is applied alike whatever waits. -/
theorem LensMap.apply_setQueue (m : LensMap) (x : List Update) (u : Update) :
    ({ m with queue := x } : LensMap).apply u = match m.apply u with
      | .ok (m', r, d) => .ok ({ m' with queue := x }, r, d)
      | .error j => .error j := by
  cases u <;> simp only [LensMap.apply] 
  · have : ({ m with queue := x } : LensMap).writeConflict = m.writeConflict := rfl
    rw [this]; split <;> simp_all
  · have : ({ m with queue := x } : LensMap).installConflict = m.installConflict := rfl
    have h2 : ({ m with queue := x } : LensMap).choosePlace = m.choosePlace := rfl
    have h3 : ({ m with queue := x } : LensMap).nextCursor = m.nextCursor := rfl
    rw [this, h2, h3]; split <;> simp_all
  · split <;> rfl
  · rfl

/-- Conflict is symmetric (R2). -/
theorem Entry.conflicts_symm (e f : Entry) : e.conflicts f = f.conflicts e := by
  unfold Entry.conflicts
  rw [Bool.eq_iff_iff]
  simp only [Bool.and_eq_true, Bool.or_eq_true, decide_eq_true_eq]
  tauto

/-- An entry that is retired conflicts with nothing new. -/
theorem Entry.conflicts_of_retired (e f : Entry) (h : e.conflicts f = false) (e' : Entry) (h1 : e'.valid = true → e' = e) : e'.conflicts f = false := by
  by_cases hv : e'.valid = true
  · rw [h1 hv]; exact h
  · unfold Entry.conflicts; simp [hv]

/-- A map whose every entry is the old one or invalid keeps the laws. -/
theorem LensMap.Law.of_sub (m : LensMap) (n : LensMap) (h : m.Law)
   (he : ∀ i : Fin 32, (n.entries[i]).valid = true → n.entries[i] = m.entries[i])
   (h1 : n.lockCount = m.lockCount) (h2 : n.cursor = m.cursor) (h3 : n.queue.length ≤ 4) : n.Law := by
  obtain ⟨a, b, c, d⟩ := h
  refine ⟨fun i j hij => ?_, h1 ▸ b, by rw [h1, h2]; exact c, h3⟩
  have := a i j hij
  have := Entry.conflicts_of_retired _ _ this _ (he i)
  rw [Entry.conflicts_symm] at this ⊢
  exact Entry.conflicts_of_retired _ _ this _ (he j)

/-- A place written with an entry that conflicts with no other keeps the laws. -/
theorem LensMap.Law.of_put (m : LensMap) (n : LensMap) (h : m.Law) (i : Fin 32) (e : Entry)
   (hc : ∀ j, j ≠ i → e.conflicts m.entries[j] = false)
   (he : n.entries = put m.entries i e)
   (h1 : n.lockCount = m.lockCount) (h2 : n.lockCount ≤ n.cursor.val) (h3 : n.queue.length ≤ 4) : n.Law := by
  obtain ⟨a, b, c, d⟩ := h
  refine ⟨fun x y hxy => ?_, h1 ▸ b, h2, h3⟩
  rw [he, put_get, put_get]
  split
  · split
    · omega
    · rename_i hx hy; exact hc y (fun h => hy h.symm)
  · split
    · rename_i hx hy; rw [Entry.conflicts_symm]; exact hc x (fun h => hx h.symm)
    · exact a x y hxy

/-- An update applied keeps the laws, and leaves the queue alone. -/
theorem LensMap.apply_law (m : LensMap) (u : Update) (h : m.Law) (m' : LensMap) (r d) (ha : m.apply u = .ok (m', r, d)) :
    m'.Law ∧ m'.queue = m.queue := by
  have hd := h.2.2.2
  cases u with
  | write i e =>
    simp only [LensMap.apply] at ha
    split at ha <;> cases ha
    rename_i hw
    refine ⟨LensMap.Law.of_put m _ h i e ?_ rfl rfl h.2.2.1 hd, rfl⟩
    intro j hj
    have := LensMap.find_eq_none.1 hw j
    simpa [hj] using this
  | install e =>
    simp only [LensMap.apply] at ha
    split at ha <;> cases ha
    rename_i hw
    refine ⟨LensMap.Law.of_put m _ h m.choosePlace { e with valid := true } ?_ rfl rfl ?_ hd, rfl⟩
    · intro j _
      exact LensMap.find_eq_none.1 hw j
    · show m.lockCount ≤ m.nextCursor.val
      have := h.2.2.1
      have := h.2.1
      unfold LensMap.nextCursor
      split
      · omega
      · unfold LensMap.cursorDown
        split
        · show m.lockCount ≤ 31; omega
        · show m.lockCount ≤ m.cursor.val - 1; omega
  | retire i =>
    simp only [LensMap.apply] at ha
    split at ha <;> cases ha
    · refine ⟨LensMap.Law.of_sub m _ h ?_ rfl rfl hd, rfl⟩
      intro j
      rw [put_get]
      split
      · intro hv; cases hv
      · intro _; rfl
    · exact ⟨h, rfl⟩
  | purge c =>
    simp only [LensMap.apply] at ha
    cases ha
    refine ⟨LensMap.Law.of_sub m _ h ?_ rfl rfl hd, rfl⟩
    intro j
    simp only [mapTable, Fin.getElem_fin]
    simp only [Vector.getElem_mk, List.getElem_toArray, List.getElem_map, Vector.getElem_toList]
    split
    · intro hv; cases hv
    · intro _; rfl

/-- One examination of the head keeps the laws and takes one item from the queue. -/
theorem LensMap.examineHead_law (m : LensMap) (r : Resolver) (x : LensMap × Report) (h : m.Law)
    (e : m.examineHead r = some x) : x.1.Law ∧ x.1.queue.length + 1 = m.queue.length := by
  unfold LensMap.examineHead at e
  cases hq : m.queue with
  | nil => simp [hq] at e
  | cons u rest =>
    have hd : rest.length ≤ 4 := by
      have h4 : m.queue.length ≤ 4 := h.2.2.2
      rw [hq, List.length_cons] at h4; omega
    simp only [hq] at e
    split at e
    · cases e
    · split at e
      · rename_i m' r' d hm
        cases e
        refine ⟨LensMap.Law.of_sub m' _ (LensMap.apply_law m u h m' r' d hm).1 (fun _ _ => rfl) rfl rfl hd, rfl⟩
      · cases e
        exact ⟨LensMap.Law.of_sub m _ h (fun _ _ => rfl) rfl rfl hd, rfl⟩

/-- A drain keeps the laws. -/
theorem State.drain_mapLaw (n : Nat) (s : State) (h : s.map.Law) : (s.drain n).map.Law := by
  induction n generalizing s with
  | zero => exact h
  | succ n ih =>
    unfold State.drain
    split
    · exact h
    · rename_i x e
      refine ih _ ?_
      rw [State.map_of_aside (State.examine_aside _ _)]
      exact (LensMap.examineHead_law _ _ _ h e).1

theorem State.drained_mapLaw (s : State) (h : s.map.Law) : s.drained.map.Law :=
  State.drain_mapLaw _ _ (by rw [State.map_of_aside s.takeReports_aside]; exact h)

/-- Standby entry changes entries alone (R24). -/
theorem LensMap.enterStandby_keeps (m : LensMap) (c : StandbyScope) :
    m.enterStandby c = { m with entries := (m.enterStandby c).entries } := by unfold LensMap.enterStandby; rfl

/-- Each entry after standby entry: retired where the scope says so, and otherwise as it was. -/
theorem LensMap.enterStandby_entry (m : LensMap) (c : StandbyScope) (i : Fin 32) :
    ((m.enterStandby c).entries)[i] = if c.retires m.lockCount i then (m.entries[i]).retired else m.entries[i] := by
  unfold LensMap.enterStandby
  simp only [Fin.getElem_fin, Vector.getElem_ofFn]

/-- Standby entry keeps the laws. -/
theorem LensMap.enterStandby_law (m : LensMap) (c : StandbyScope) (h : m.Law) : (m.enterStandby c).Law := by
  have key : ∀ i : Fin 32, (((m.enterStandby c).entries)[i]).valid = true → ((m.enterStandby c).entries)[i] = m.entries[i] := by
    intro i
    rw [LensMap.enterStandby_entry]
    split
    · intro hv; cases hv
    · intro _; rfl
  rw [LensMap.enterStandby_keeps]
  generalize (m.enterStandby c).entries = v at key
  exact LensMap.Law.of_sub m _ h key rfl rfl h.2.2.2

/-- The map after the entry to standby. -/
theorem State.enterStandby_map (s : State) (c : StandbyScope) : (s.enterStandby c).map = s.map.enterStandby c := by
  unfold State.enterStandby; dsimp only
  rw [State.map_of_aside (State.standbyStab_aside _)]
  show (s.takeScenes.map).enterStandby c = _
  rw [State.map_of_aside s.takeScenes_aside]

/-- An update taken on arrival keeps the laws. -/
theorem takeUpdate_mapLaw (u : Update) (s : State) (h : s.map.Law) : (takeUpdate u s).1.map.Law := by
  unfold takeUpdate
  repeat' split
  · exact LensMap.Law.of_sub s.map _ h (fun _ _ => rfl) rfl rfl (show ([u] : List Update).length ≤ 4 by simp)
  · rename_i m r d hm; exact (LensMap.apply_law s.map u h m r d hm).1
  · exact h
  · exact h
  · rename_i hl
    have : ¬ 4 ≤ s.map.queue.length := hl
    exact LensMap.Law.of_sub s.map _ h (fun _ _ => rfl) rfl rfl (by simp; omega)

end Sys2Proof.Machine
end

