-- ==== Sys2Proof/Tests/Slice0.lean ====
section
/-! SUPPORT. The model's own tests: the ill-formed terms that the well-formedness check refuses, and, for every statement of
Certificates/Slice0/Obligations.lean that has hypotheses, a concrete state and operands that meet them, with what comes out.
`ex`, `ans` and `lnk` show a command's next state, the answer that the link holds after it, and that answer's result. -/

namespace Sys2Proof.Tests

open Sys2Proof.Machine

/-! ### Helpers -/

/-- The next state of a command. -/
def ex (c : Instr) (s : State) : State :=
  match exec c s with
  | .next t => t
  | _ => s

/-- The answer that the link holds. -/
def held (s : State) : Option Answer :=
  match s.link with
  | .working a _ | .answering a _ => some a
  | .free => none

/-- The answer after a command. -/
def ans (c : Instr) (s : State) : Option Answer := held (ex c s)

/-- The result after a command. -/
def res (c : Instr) (s : State) : Option Result := (ans c s).map fun a => a.result

/-- An axis at rest at a position. -/
def atRest (a : AxisId) (n : Nat) (hold : HoldState) : AxisRecord :=
  { AxisRecord.reset a with state := .idle, position := some n, target := some n, hold := hold }

/-- An entry for context 0 and a band, permitting travel, with focus limits 500 to 3000. -/
def entry (band : Nat) : Entry := ⟨0, band, false, true, true, 5, 500, 3000, 8, 3, 100⟩

/-- The homed part: ZOOM at 110 (band 4), FOCUS at 1000 and IRIS at 10, coils energized; bands 4 and 5 mapped at indexes 0 and
1; the record resolved from index 0. -/
def home : State :=
  { State.reset with
    map := { LensMap.reset with entries := (LensMap.reset.entries.set 0 (entry 4)).set 1 (entry 5) }
    zoom := atRest .zoom 110 .energized
    focus := atRest .focus 1000 .energized
    iris := atRest .iris 10 .energized
    resolver := { Resolver.reset with record := ⟨true, (entry 4).facts, some 0, some ⟨0, 4⟩⟩ } }

/-- The record pinned for a sweep. -/
def pinned : State := { home with resolver := { home.resolver with sweepPin := true } }

/-- In standby. -/
def asleep : State := { State.reset with standby := true }

/-! ### Well-formedness: an ill-formed term for each check -/

theorem test_illFormed_rejected_empty : (Instr.requestFrameRejected []).wellFormed = false := by decide
theorem test_illFormed_rejected_zero : (Instr.requestFrameRejected [0#8]).wellFormed = false := by decide
theorem test_illFormed_dropped_empty : (Instr.requestFrameDropped []).wellFormed = false := by decide
theorem test_illFormed_read_none : (Instr.readTransaction 0).wellFormed = false := by decide
theorem test_illFormed_target_zero : (Instr.referenceTargetReached 0).wellFormed = false := by decide
theorem test_illFormed_target_late : (Instr.referenceTargetReached 1048575).wellFormed = false := by decide
theorem test_illFormed_exhausted : (Instr.timeBaseExhausted 65536).wellFormed = false := by decide
theorem test_illFormed_sensor : (Instr.sensorPhaseEnd 16777217).wellFormed = false := by decide
theorem test_illFormed_gyro : (Instr.gyroTransferDiscarded [0#8, 0#8, 0#8, 0#8]).wellFormed = false := by decide
theorem test_illFormed_params : (Instr.mapRead (List.replicate 61 0#8)).wellFormed = false := by decide
theorem test_wellFormed : (Instr.mapRead [0#8]).wellFormed = true ∧ (Instr.readTransaction 1).wellFormed = true ∧
    (Instr.sensorPhaseEnd 16777216).wellFormed = true := by decide

/-! ### The step and the link -/

theorem test_step_idles : State.reset.pending = [] ∧ step State.reset = .next State.reset := ⟨rfl, rfl⟩
theorem test_reset_contacts : (ex (.powerOnReset true false true true) home).release.halfDebounce = true ∧
    (ex (.powerOnReset true false true true) home).resolver.context = 3 := by decide
theorem test_frame_malformed : State.reset.link = .free ∧
    res (.requestFrameRejected [1#8, 2#8]) State.reset = some .linkError ∧
    res (.requestFrameRejected (1#8 :: 61#8 :: List.replicate 62 0#8)) State.reset = some .linkError := by decide
theorem test_frame_badSum : res (.requestFrameRejected [16#8, 0#8, 0#8]) State.reset = some .linkError ∧
    requestFrame 16 [] = [16#8, 0#8, 240#8] := by decide
theorem test_frame_unknown : (255 ∉ requestCodes) ∧ (15 ∉ requestCodes) ∧ (148 ∉ requestCodes) ∧
    res (.requestFrameRejected (requestFrame 15 [])) State.reset = some .unknownRequest := by decide
theorem test_frame_standby : asleep.link = .free ∧ 16 ∈ requestCodes ∧ 16 ∉ standbyCodes ∧
    res (.requestFrameRejected (requestFrame 16 [0#8])) asleep = some .standby := by decide

/-- An answer of DONE with one byte waits. -/
def waiting : State := { State.reset with link := .answering ⟨.done, [7#8]⟩ true }

theorem test_read_whole : (answerFrame ⟨.done, [7#8]⟩ true).length = 4 ∧ (ex (.readTransaction 5) waiting).link = .free ∧
    (ex (.readTransaction 5) waiting).sent = [129#8, 1#8, 7#8, 119#8] := by decide
theorem test_read_short : (ex (.readTransaction 4) waiting).link = waiting.link ∧
    (ex (.readTransaction 4) waiting).sent = [129#8, 1#8, 7#8] := by decide
theorem test_read_free : (ex (.readTransaction 3) State.reset).sent = [0#8, 0#8] := by decide
theorem test_owner_places : ∃ t : State, t = { State.reset with link := .working ⟨.done, []⟩ true } ∧
    rdy (ex .ownerPlacesAnswer t) = true := ⟨_, rfl, by decide⟩
theorem test_owner_places_standby : (ex .ownerPlacesAnswer { asleep with
      entering := true, link := .working ⟨.done, []⟩ false, zoom := { atRest .zoom 110 .energized with state := .waking }
    }).zoom.hold = .released ∧
    (ex .ownerPlacesAnswer { home with link := .working ⟨.done, []⟩ false }).zoom.hold = .energized := by decide
theorem test_dropped : (ex (.requestFrameDropped [1#8]) { State.reset with link := .working ⟨.done, []⟩ false }).link =
    .working ⟨.done, []⟩ true ∧ (ex (.mapStatus []) { State.reset with link := .answering ⟨.done, []⟩ false }).link =
    .answering ⟨.done, []⟩ true := by decide
theorem test_standby_request : (Instr.shoot []).request? = some (129, []) ∧ 129 ∉ standbyCodes ∧
    res (.shoot []) asleep = some .standby := by decide
theorem test_wrongLength : (Instr.mapRead []).request? = some (16, []) ∧ lengthFits 16 0 = false ∧
    lengthFits 16 2 = false ∧ res (.mapRead []) State.reset = some .badParameter := by decide
theorem test_value_map : finParam 32 [32#8] = none ∧ probeParams [16#8, 0#8] = none ∧ probeParams [0#8, 64#8] = none ∧
    writeParams (32#8 :: (entry 6).bytes) = none ∧ entryParam ({ entry 6 with band := 64 } : Entry).bytes = none ∧
    finParam 16 [16#8] = none ∧ finParam 17 [17#8] = none ∧ finParam 4 [4#8] = none ∧
    res (.mapLock [17#8]) home = some .badParameter := by decide
theorem test_value_axis : axisParam [3#8] = none ∧ moveParams [2#8, 64#8] = none ∧ moveParams [1#8, 0#8, 16#8] = none ∧
    profileParams [0#8, 199#8, 0#8, 0#8, 0#8, 0#8, 1#8, 0#8] = none ∧ res (.axisRead [3#8]) asleep = some .badParameter ∧
    res (.axisHome [3#8] false) home = some .badParameter ∧ res (.axisMove [2#8, 64#8]) home = some .badParameter := by decide
theorem test_value_sweep_meter : sweepParams [0#8, 0#8, 0#8, 0#8, 65#8, 0#8, 0#8, 0#8] = none ∧ contrastParam [0#8] = none ∧
    sweepParams [0#8, 0#8, 0#8, 16#8, 1#8, 0#8, 0#8, 0#8] = none ∧ flagParam [2#8] = none ∧
    meterParams [1#8, 0#8, 0#8, 0#8, 0#8, 1#8, 0#8] = none ∧ meterParams [0#8, 7#8, 0#8, 0#8, 255#8, 0#8, 0#8] = none ∧
    res (.meterEnable [2#8]) home = some .badParameter := by decide
theorem test_value_exposure : exposureParams (16#8 :: List.replicate 14 0#8) = none ∧ stabParams [1#8, 0#8, 128#8] = none ∧
    exposureParams (List.replicate 10 0#8 ++ [19#8, 0#8, 0#8, 0#8, 0#8]) = none ∧ programParams [1#8, 1#8, 0#8] = none ∧
    res (.stabSetup [1#8, 0#8, 128#8]) home = some .badParameter := by decide
theorem test_value_release : releaseParams [0#8, 100#8, 0#8, 0#8, 0#8, 0#8] = none ∧
    releaseParams [0#8, 0#8, 0#8, 0#8, 0#8, 0#8] = none ∧ finParam 12 [12#8] = none ∧
    developedParams [0#8, 0#8, 0#8, 0#8] = none ∧ developedParams [12#8, 1#8, 0#8, 0#8] = none ∧
    capacityParam [0#8, 0#8] = none ∧ sizeParams (List.replicate 7 0#8) = none ∧ scopeParam [3#8] = none ∧
    res (.slotRead [12#8]) home = some .badParameter ∧ res (.standby [3#8]) home = some .badParameter := by decide
theorem test_decode_encode : (Instr.mapProbe [0#8, 4#8]).wellFormed = true ∧
    encodeFrame (.mapProbe [0#8, 4#8]) = some [17#8, 2#8, 0#8, 4#8, 233#8] ∧
    decodeFrame [17#8, 2#8, 0#8, 4#8, 233#8] false = some (.mapProbe [0#8, 4#8]) := by decide

/-! ### Parameters -/

theorem test_params_entry : entryParam [15#8, 63#8, 1#8, 0#8, 1#8, 0x30#8, 0xF8#8, 1#8, 0#8, 0xFF#8, 0x0F#8, 63#8, 64#8, 255#8] =
    some ⟨15, 63, true, false, true, -2000, 1, 4095, 63, 64, 255⟩ := by decide
theorem test_params_entry_limits : entryParam [0#8, 0#8, 0#8, 0#8, 0#8, 0#8, 0#8, 2#8, 0#8, 1#8, 0#8, 0#8, 0#8, 0#8] = none := by
  decide
theorem test_params_move : moveParams [0#8, 0x3F#8, 6#8] = some (.zoom, 1599) ∧ moveParams [0#8, 0x40#8, 6#8] = none ∧
    moveParams [2#8, 63#8] = some (.iris, 63) := by decide
theorem test_params_sweep : sweepParams [0#8, 0#8, 0xFF#8, 0x0F#8, 64#8, 1#8, 1#8, 0#8] = some ⟨0, 4095, 64, .peak 1⟩ ∧
    sweepParams [0#8, 0#8, 0xFF#8, 0x0F#8, 64#8, 1#8, 0#8, 0#8] = none := by decide
theorem test_params_other : meterParams [0#8, 7#8, 1#8, 2#8, 0#8, 1#8, 1#8] = some ⟨0, 7, .continuous, .half, 256, true⟩ ∧
    stabParams [1#8, 0xFF#8, 0x7F#8] = some (true, 32767) ∧ scopeParam [2#8] = some .none ∧
    releaseParams [1#8, 99#8, 1#8, 0#8, 0#8, 0#8] = some ⟨.burst, 99, true, false, false, false⟩ := by decide
theorem test_params_program : programParams [255#8, 255#8] = some ⟨255, 255, []⟩ ∧
    programParams [1#8, 1#8, 0#8, 128#8, 255#8, 255#8, 255#8, 255#8, 255#8] =
      some ⟨1, 1, [⟨-32768, ⟨16777215, 255, 255⟩⟩]⟩ ∧
    programParams [1#8, 1#8, 0#8, 128#8, 255#8, 255#8, 255#8, 255#8] = none ∧ programParams [0#8] = none := by decide

/-! ### The lens map -/

/-- An update waits. -/
def queued : State := { home with map := { home.map with queue := [.retire 3] } }

theorem test_mapRead : home.ready ∧ home.map.queue = [] ∧ res (.mapRead [31#8]) home = some .done ∧
    res (.mapRead [32#8]) home = some .badParameter ∧ res (.mapRead [31#8]) queued = some .updatesPending := by
  refine ⟨⟨rfl, rfl⟩, rfl, ?_⟩; decide
theorem test_mapProbe : ans (.mapProbe [0#8, 5#8]) home = some ⟨.done, [1#8]⟩ ∧
    res (.mapProbe [15#8, 63#8]) home = some .notFound ∧ res (.mapProbe [0#8, 5#8]) queued = some .updatesPending := by decide
theorem test_mapWrite : home.resolver.pinned = false ∧ writeParams (31#8 :: (entry 6).bytes) = some (31, entry 6) ∧
    ans (.mapWrite (31#8 :: (entry 6).bytes)) home = some ⟨.done, []⟩ ∧
    ans (.mapWrite (31#8 :: (entry 4).bytes)) home = some ⟨.duplicateKey, [0#8]⟩ := by decide
theorem test_mapRetire : (home.map.entries[(0 : Fin 32)]).valid = true ∧
    (ex (.mapRetire [0#8]) home).handoffs.reports = [[(0, false)]] ∧
    (ex (.mapRetire [31#8]) home).handoffs.reports = [] := by decide
theorem test_mapPinned : pinned.map.holds pinned.resolver (.write 3 (entry 9)) = false ∧
    ans (.mapWrite (3#8 :: (entry 9).bytes)) pinned = some ⟨.done, []⟩ ∧
    pinned.map.holds pinned.resolver (.install (entry 9)) = false ∧ ans (.mapInstall (entry 9).bytes) pinned = some ⟨.done, [2#8]⟩ ∧
    pinned.map.holds pinned.resolver (.purge 15) = false ∧ ans (.mapPurge [15#8]) pinned = some ⟨.done, [0#8]⟩ ∧
    ans (.mapRetire [1#8]) pinned = some ⟨.done, []⟩ := by decide
theorem test_mapInstall : ans (.mapInstall (entry 6).bytes) home = some ⟨.done, [2#8]⟩ ∧
    ans (.mapInstall (entry 5).bytes) home = some ⟨.duplicateKey, [1#8]⟩ := by decide

/-- Every place from the lock count holds a valid entry; the cursor stands at the lock count. -/
def full : State := { home with map := { home.map with
  entries := Vector.ofFn fun i : Fin 32 => entry i.val, lockCount := 16, cursor := 16 } }

theorem test_mapInstall_cursor : (∀ j : Fin 32, full.map.lockCount ≤ j.val → (full.map.entries[j]).valid = true) ∧
    ans (.mapInstall (entry 40).bytes) full = some ⟨.done, [16#8]⟩ ∧
    (ex (.mapInstall (entry 40).bytes) full).map.cursor = 31 := by decide
theorem test_mapPurge : ans (.mapPurge [0#8]) home = some ⟨.done, [2#8]⟩ ∧ ans (.mapPurge [15#8]) home = some ⟨.done, [0#8]⟩ := by
  decide
theorem test_mapQueue : updateOf (.mapRetire [0#8]) = some (.retire 0) ∧
    pinned.map.holds pinned.resolver (.retire 0) = true ∧ ans (.mapRetire [0#8]) pinned = some ⟨.queued, [1#8]⟩ ∧
    ans (.mapRetire [1#8]) queued = some ⟨.queued, [2#8]⟩ ∧
    res (.mapRetire [1#8]) { home with map := { home.map with queue := [.retire 1, .retire 2, .retire 3, .retire 4] } } =
      some .queueFull := by decide
theorem test_pinHolds : pinned.map.holds pinned.resolver (.retire 1) = false ∧
    pinned.map.holds pinned.resolver (.purge 0) = true ∧ pinned.map.holds pinned.resolver (.install (entry 4)) = true ∧
    pinned.map.holds pinned.resolver (.write 0 (entry 9)) = true ∧
    pinned.map.holds pinned.resolver (.write 3 (entry 9)) = false := by decide

/-- A drain is due, with one update that fails, one that succeeds and one that is held. -/
def draining : State := { pinned with
  map := { pinned.map with queue := [.write 3 (entry 5), .retire 1, .retire 0] }, handoffs := { Handoffs.empty with drains := 1 } }

theorem test_drain : draining.handoffs.drains = 0 + 1 ∧ (ex .queueDrain draining).map.queue = [.retire 0] ∧
    (ex .queueDrain draining).map.rejection = some ⟨.write, some 3, none, .duplicateKey, 1⟩ ∧
    (ex .queueDrain draining).handoffs.reports = [] := by decide
theorem test_drain_head : draining.handoffs.reports = [] ∧ draining.map.holds draining.resolver (.write 3 (entry 5)) = false ∧
    (draining.map.apply (.write 3 (entry 5)) matches .error 1) ∧ (draining.map.apply (.retire 1) matches .ok _) ∧
    draining.map.holds draining.resolver (.retire 1) = false ∧ draining.map.holds draining.resolver (.retire 0) = true := by decide

/-- The queue retires the record's source and installs an entry for its pair again. -/
def replacing : State := { home with
  map := { home.map with queue := [.retire 0, .install (entry 4)] }, handoffs := { Handoffs.empty with drains := 1 } }

theorem test_drain_miss : (ex .queueDrain { replacing with map := { replacing.map with queue := [.retire 0] } }).resolver.miss =
      some ⟨0, 4, .update⟩ ∧
    (ex .queueDrain replacing).handoffs.stab = [.unresolved, .load 100] ∧ (ex .queueDrain replacing).handoffs.loads.length = 1 ∧
    (ex .queueDrain replacing).resolver.record.source = some 0 := by decide
theorem test_drain_empty : (ex .queueDrain { home with handoffs := { Handoffs.empty with drains := 1 } }).handoffs.drains = 0 := by
  decide
theorem test_mapLock : (ex (.mapLock [16#8]) { home with map := { home.map with cursor := 15 } }).map.cursor = 31 ∧
    (ex (.mapLock [0#8]) home).map.lockCount = 0 ∧ res (.mapLock [17#8]) home = some .badParameter := by decide
theorem test_mapLaw : home.map.Law ∧ (∃ t, step { home with pending := [.mapPurge [0#8]] } = .next t) :=
  ⟨by unfold LensMap.Law LensMap.NoDuplicates; decide, _, rfl⟩

/-! ### The active lens record -/

theorem test_resolve_loads : home.zoom.position = some 110 ∧ home.map.lookup ⟨0, 110 / 25⟩ = some 0 ∧
    (home.resolve .context).handoffs.loads.length = 1 := by decide
theorem test_resolve_misses : ({ home with zoom := atRest .zoom 1599 .energized } : State).map.lookup ⟨0, 1599 / 25⟩ = none ∧
    (({ home with zoom := atRest .zoom 1599 .energized } : State).resolve .context).resolver.miss = some ⟨0, 63, .context⟩ := by
  decide
theorem test_resolve_unhomed : State.reset.zoom.state = .unhomed ∧
    (({ State.reset with resolver := home.resolver } : State).resolve .update).handoffs.stab = [.unresolved] := by decide
theorem test_resolve_deferred : (pinned.resolve .context).resolver.deferred = true ∧ asleep.resolve .update = asleep := by decide
theorem test_noZero : home.noZeroSettle := fun a => by cases a <;> decide
theorem test_setMode : res (.setMode [3#8]) pinned = some .pinned ∧ (ex (.setMode [3#8]) home).resolver.mode = 3 ∧
    (ex (.setMode [3#8]) home).resolver.miss = some ⟨12, 4, .context⟩ ∧ res (.setMode [4#8]) home = some .badParameter ∧
    ex (.setMode [0#8]) home = home.answer ⟨.done, []⟩ := by decide

/-- Code 3 has been read once. -/
def sensed (s : State) : State := { s with resolver := { s.resolver with lastSample := 3 } }

theorem test_accessory_first : (ex (.accessorySample true true) home).resolver.lastSample = 3 ∧
    (ex (.accessorySample true true) home).resolver.sensed = 0 := by decide
theorem test_accessory_taken : (ex (.accessorySample true true) (sensed home)).resolver.context = 3 ∧
    (ex (.accessorySample true true) (sensed pinned)).resolver.pendingCode = some 3 ∧
    (ex (.accessorySample true true) (sensed asleep)).resolver.accessory = 3 := by decide
theorem test_accessory_back : (ex (.accessorySample false false)
    { pinned with resolver := { pinned.resolver with sensed := 3, pendingCode := some 3 } }).resolver.pendingCode = none := by
  decide
theorem test_accessory_same : (ex (.accessorySample false false)
      { home with resolver := { home.resolver with sensed := 3 } }).resolver.sensed = 0 ∧
    (ex (.accessorySample true true) (sensed pinned)).resolver.deferred = true := by decide

/-- Reports of changed entries are in flight. -/
def reported (s : State) (r : Report) : State := { s with handoffs := { s.handoffs with reports := [r] } }

/-- The record is unresolved. -/
def unresolved : State := { home with resolver := { home.resolver with record := { home.resolver.record with resolved := false } } }

theorem test_report_source : (ex .updateReport (reported home [(0, false)])).handoffs.loads.length = 1 ∧
    (ex .updateReport (reported home [(1, true)])).handoffs.loads = [] := by decide
theorem test_report_wanted : (ex .updateReport (reported unresolved [(0, true)])).resolver.record.resolved = true ∧
    (ex .updateReport (reported unresolved [(1, true)])).resolver.record.resolved = false := by decide
theorem test_report_unhomed : State.reset.resolver.record.resolved = false ∧ State.reset.examine [(0, true)] = State.reset ∧
    (reported home [(0, false)]).takeReports.handoffs.loads.length = 1 := by decide

/-- ZOOM at 124 waits at the edge of band 5, upward. -/
def atEdge : State := { unresolved with
  zoom := { atRest .zoom 124 .energized with state := .waitMap, target := some 200, mover := some .host, lastDirection := .awayFromHome }
  travel := ⟨true, some 5, some .awayFromHome, false, 0⟩ }

theorem test_report_waited : atEdge.zoom.state = .waitMap ∧ atEdge.zoom.profile.settle ≠ 0 ∧
    (ex .updateReport (reported atEdge [(1, true)])).zoom.position = some 125 ∧
    (ex .updateReport (reported atEdge [(0, true)])).zoom.state = .waitMap := by decide
theorem test_recordLaw : home.RecordLaw ∧ ∃ t, step { home with pending := [.axisMove [0#8, 0#8, 0#8]] } = .next t :=
  ⟨by unfold State.RecordLaw; decide, _, rfl⟩
theorem test_readings : ans (.mapStatus []) home = some ⟨.done, home.mapStatusData⟩ ∧
    (ans (.status []) home).map (fun a => a.data.length) = some 22 ∧
    ans (.axisRead [2#8]) home = some ⟨.done, home.axisData .iris⟩ := by decide
theorem test_readings_awake : ans (.sweepRead []) home = some ⟨.done, home.sweep.record.bytes⟩ ∧
    ans (.slotRead [11#8]) home = some ⟨.done, [11#8, 0#8]⟩ ∧ res (.meterRead []) home = some .done ∧
    res (.releaseRead []) home = some .done ∧ res (.exposureRead []) home = some .done ∧ res (.stabRead []) home = some .done ∧
    res (.readLens []) home = some .done := by decide

/-! ### The axes -/

/-- One axis changed. -/
def withAxis (a : AxisId) (f : AxisRecord → AxisRecord) (s : State) : State := s.setAxis a (f (s.axis a))

/-- A completion is pending on IRIS. -/
def uncollected : State := withAxis .iris (fun r => { r with completion := ⟨true, some .reached, some 10, none⟩ }) home

/-- The hold-off runs. -/
def heldOff : State := { home with holdOff := true }

theorem test_home_refused : axisParam [2#8] = some .iris ∧ res (.axisHome [2#8] false) uncollected = some .uncollected ∧
    res (.axisHome [0#8] false) pinned = some .busy ∧ res (.axisHome [1#8] false) heldOff = some .holdOff ∧
    res (.axisHome [3#8] false) home = some .badParameter := by decide
theorem test_home_started : (ex (.axisHome [0#8] false) State.reset).zoom.wakeTimer = some 5 ∧
    (ex (.axisHome [0#8] true) home).zoom.ending = .homed ∧ (ex (.axisHome [1#8] false) home).focus.homingCount = 1 ∧
    (ex (.axisHome [0#8] false) home).resolver.record.resolved = false := by decide

/-- An axis homes; its step timer runs. -/
def homing (a : AxisId) (count : Nat) (p : StopPending) : State :=
  withAxis a (fun r => { r with
    state := .homing, hold := .energized, mover := some .host, homingCount := count, stopPending := p, stepTimer := some 1 })
    State.reset

theorem test_homing_due : (homing .iris 0 .none).decisionDue (.stepIntervalExpiry .iris true) .iris true
    { (homing .iris 0 .none).iris with stepTimer := none } := Or.inl ⟨rfl, by decide, rfl⟩
theorem test_homing_decision : (ex (.stepIntervalExpiry .iris true) (homing .iris 70 .none)).iris.position = some 0 ∧
    (ex (.stepIntervalExpiry .iris false) (homing .iris 69 .none)).iris.homingCount = 70 ∧
    (ex (.stepIntervalExpiry .iris false) (homing .iris 70 .none)).iris.state = .fault ∧
    (ex (.stepIntervalExpiry .zoom false) (homing .zoom 1759 .none)).zoom.state = .homing ∧
    (ex (.stepIntervalExpiry .focus false) (homing .focus 4500 .none)).focus.completion.outcome = some .homeNotFound := by decide
theorem test_homing_stopped : (ex (.stepIntervalExpiry .zoom true) (homing .zoom 3 .stop)).zoom.completion.outcome =
      some .stopped ∧ (ex (.stepIntervalExpiry .zoom true) (homing .zoom 3 .clear)).zoom.completion.pending = false ∧
    (ex (.stepIntervalExpiry .zoom true) (homing .zoom 3 .clear)).zoom.state = .unhomed := by decide

theorem test_move_refused : moveParams [1#8, 0#8, 2#8] = some (.focus, 512) ∧
    res (.axisMove [1#8, 0#8, 2#8]) State.reset = some .notHomed ∧
    res (.axisMove [1#8, 0#8, 2#8]) (withAxis .focus (fun r => { r with state := .fault }) home) = some .axisFault ∧
    res (.axisMove [2#8, 9#8]) uncollected = some .uncollected ∧
    res (.axisMove [2#8, 9#8]) (withAxis .iris (fun r => { r with ownership := .exposure }) home) = some .busy ∧
    res (.axisMove [2#8, 9#8]) heldOff = some .holdOff := by decide
theorem test_move_refused_lens : res (.axisMove [1#8, 0#8, 2#8]) unresolved = some .noLens ∧
    res (.axisMove [1#8, 0xF3#8, 1#8]) home = some .outOfLimits ∧ res (.axisMove [1#8, 0xB9#8, 0xB#8]) home = some .outOfLimits ∧
    res (.axisMove [0#8, 0#8, 0#8]) pinned = some .busy := by decide
theorem test_mayMove : home.mayMove .focus 500 ∧ home.mayMove .focus 3000 ∧ home.mayMove .zoom 0 := by
  unfold State.mayMove; decide
/-- ZOOM moves upward from 110 with no backlash left. -/
def moving (target : Nat) (p : StopPending) : State :=
  withAxis .zoom (fun r => { r with
    state := .moving, target := some target, lastDirection := .awayFromHome, stepTimer := some 1250, mover := some .host
    stopPending := p }) home

theorem test_move_begins : (ex (.axisMove [0#8, 110#8, 0#8]) home).zoom.state = .settling ∧
    (ex (.axisMove [0#8, 0#8, 0#8]) home).zoom.state = .moving ∧
    (ex (.axisMove [2#8, 63#8]) (withAxis .iris (fun r => { r with hold := .released }) home)).iris.state = .waking ∧
    (ex (.axisMove [0#8, 0#8, 0#8]) (moving 200 .stop)).zoom.stopPending = .none := by decide
theorem test_decision : (ex (.stepIntervalExpiry .zoom false) (moving 112 .none)).zoom.position = some 111 ∧
    (ex (.stepIntervalExpiry .zoom false) (moving 110 .none)).zoom.state = .settling ∧
    (ex (.stepIntervalExpiry .zoom false) (moving 112 .stop)).zoom.ending = .stopped ∧
    (ex (.stepIntervalExpiry .zoom false) (moving 112 .clear)).zoom.state = .idle := by decide
theorem test_wake_decision : (ex (.wakeTimerExpiry .iris false) (withAxis .iris (fun r => { r with
    state := .waking, target := some 12, wakeTimer := some 2 }) home)).iris.position = some 11 := by decide
theorem test_backlash : ((moving 100 .none).stepAxis .zoom).zoom.position = some 110 ∧
    ((moving 100 .none).stepAxis .zoom).zoom.backlashRemaining = 7 ∧
    ((moving 100 .none).stepAxis .zoom).zoom.lastDirection = .towardHome := by decide

/-- ZOOM moves upward at the top position of its band, with a map. -/
def crossing (m : LensMap) : State := { moving 200 .none with
  map := m, zoom := { (moving 200 .none).zoom with position := some 124 } }

theorem test_crossing_permitted : home.map.lookup ⟨0, 125 / 25⟩ = some 1 ∧
    ((crossing home.map).stepAxis .zoom).zoom.position = some 125 ∧
    ((crossing home.map).stepAxis .zoom).resolver.record.source = some 1 := by decide
theorem test_crossing_forbidden : ((crossing { home.map with
    entries := home.map.entries.set 1 { entry 5 with drivePermit := false } }).stepAxis .zoom).zoom.ending = .bandForbidden := by
  decide
theorem test_crossing_missed : ((crossing LensMap.reset).stepAxis .zoom).zoom.state = .waitMap ∧
    ((crossing LensMap.reset).stepAxis .zoom).resolver.miss = some ⟨0, 5, .zoomStep⟩ := by decide

theorem test_wait_refilled : atEdge.map.lookup ⟨0, 5⟩ = some 1 ∧ (atEdge.resolve .update).zoom.position = some 125 ∧
    (({ atEdge with map := LensMap.reset } : State).resolve .update).zoom.state = .waitMap ∧
    (({ atEdge with map := { home.map with
      entries := home.map.entries.set 1 { entry 5 with drivePermit := false } } } : State).resolve .update).zoom.ending =
      .bandForbidden := by decide
theorem test_wait_ended : (ex .refillTimerExpiry atEdge).zoom.ending = .mapMiss ∧
    (ex (.axisStop [0#8]) atEdge).zoom.ending = .stopped ∧ (ex (.axisMove [0#8, 125#8, 0#8]) atEdge).zoom.state = .waitMap ∧
    (ex (.axisMove [0#8, 124#8, 0#8]) atEdge).zoom.state = .settling ∧ (atEdge.resolve .zoomStep).standby = false := by decide
theorem test_wait_move : atEdge.mayMove .zoom 125 ∧ atEdge.mayMove .zoom 124 := by unfold State.mayMove; decide

theorem test_stop : res (.axisStop [0#8]) home = some .done ∧ res (.axisStop [0#8]) (moving 112 .none) = some .started ∧
    res (.axisStop [0#8]) (moving 112 .clear) = some .done ∧
    (ex (.axisStop [0#8]) (homing .zoom 3 .none)).zoom.stopPending = .stop := by decide
theorem test_stop_waking : (ex (.axisStop [2#8]) (withAxis .iris (fun r => { r with
      state := .waking, target := some 12, wakeTimer := some 2, mover := some .host }) home)).iris.ending = .stopped ∧
    (ex (.axisStop [0#8]) (withAxis .zoom (fun r => { r with stepTimer := none, wakeTimer := some 5 })
      (homing .zoom 0 .none))).zoom.completion.outcome = some .stopped := by decide


/-- An axis settles. -/
def settling (a : AxisId) (m : Mover) (e : Ending) : State :=
  withAxis a (fun r => { r with state := .settling, mover := some m, ending := e, settleTimer := some 2 }) home

theorem test_settle_host : (ex (.settleTimerExpiry .zoom) (settling .zoom .host .reached)).zoom.completion =
      ⟨true, some .reached, some 110, none⟩ ∧
    (ex (.settleTimerExpiry .zoom) (settling .zoom .host .homed)).handoffs.loads.length = 1 ∧
    (ex (.settleTimerExpiry .iris) (settling .iris .host .reached)).iris.holdTimer = none ∧
    (ex (.settleTimerExpiry .iris) (settling .iris .exposure .reached)).iris.completion.pending = false := by decide
theorem test_settle_focus : (ex (.settleTimerExpiry .focus) (settling .focus .host .reached)).focus.holdTimer = some 300 ∧
    (ex (.settleTimerExpiry .focus) (withAxis .focus (fun r => { r with position := some 0, target := some 0 })
      (settling .focus .host .homed))).focus.target = some 500 := by decide
theorem test_settle_zero : ((withAxis .iris (fun r => { r with settleTimer := some 0 }) (settling .iris .host .reached)).settleNow
      .iris).iris.state = .idle ∧ home.settleNow .iris = home ∧ (settling .zoom .host .reached).settleNow .zoom =
      settling .zoom .host .reached ∧
    (ex (.axisMove [2#8, 10#8]) (withAxis .iris (fun r => { r with profile := { r.profile with settle := 0 } }) home)).iris.state =
      .idle := by decide

/-- A sweep, with FOCUS settling for it. -/
def sweeping (st : SweepState) (o : SweepOrigin) : State := { settling .focus .sweep .reached with
  sweep := { SweepUnit.reset with record := ⟨st, o, ⟨1000, 1100, 50, .peak 10⟩, 3, some 1, some 1000, false, false, 0, none, none, 0, none⟩ }
  focus := { (settling .focus .sweep .reached).focus with ownership := .sweep }
  resolver := { home.resolver with sweepPin := true } }

theorem test_settle_sweep : (ex (.settleTimerExpiry .focus) (sweeping .travelling .host)).sweep.record.state = .awaiting ∧
    (ex (.settleTimerExpiry .focus) (sweeping .returning .host)).focus.completion.outcome = some .sweepHit ∧
    (ex (.settleTimerExpiry .focus) (sweeping .stopping .host)).focus.completion.outcome = some .stopped := by decide
theorem test_collect : ans (.axisCollect [2#8]) uncollected = some ⟨.done, uncollected.iris.completion.collectData .iris⟩ ∧
    (ex (.axisCollect [2#8]) uncollected).iris.completion.pending = false ∧ res (.axisCollect [2#8]) home = some .none := by decide
theorem test_attention : attn home = false ∧ attn uncollected = true ∧ (attentionSources home).length = 21 ∧
    attn { home with release := { home.release with burst := { home.release.burst with notice := true } } } = true := by decide
theorem test_layouts : queued.headBlocked = false ∧
    ({ pinned with map := { pinned.map with queue := [.retire 0] } } : State).headBlocked = true ∧
    ({ home.exposure with lock := .held (-1) true } : ExposureUnit).bytes.length = home.exposure.bytes.length ∧
    uncollected.iris.completion.outcome = some .reached ∧
    uncollected.iris.completion.collectData .iris = [2#8, 1#8, 10#8] ++ List.replicate 18 0#8 ∧
    (⟨.free, none, none, none, none, none, false⟩ : Slot).bytes 11 = [11#8, 0#8] ∧
    (Slot.bytes ⟨.armed, some ⟨.switch, 1, 0, ⟨100, 10, 0⟩, none, none, 0, 4, 110⟩, none, none, some 64, none, false⟩ 0).length =
      38 := by decide

/-- AXIS_PROFILE for IRIS: 200 us, 255 ms, 5000 ms, 1 ms, 63 steps. -/
def irisProfile : Bytes := 2#8 :: (u16 200 ++ u8 255 ++ u16 5000 ++ u8 1 ++ u8 63)

theorem test_profile : profileParams irisProfile = some (.iris, ⟨200, 255, 5000, 1, 63⟩) ∧
    (ex (.axisProfile irisProfile) home).holdOff = true ∧ (ex (.axisProfile irisProfile) home).iris.profile.backlash = 63 ∧
    res (.axisProfile irisProfile) (moving 112 .none) = some .busy := by decide
theorem test_timers : (ex .profileHoldOffExpiry heldOff).holdOff = false ∧
    (ex (.holdReleaseExpiry .zoom) (withAxis .zoom (fun r => { r with holdTimer := some 500 }) home)).zoom.hold = .released := by
  decide
theorem test_internal : (home.internalMove .iris 10 .exposure).iris.state = .settling ∧
    (home.internalMove .iris 63 .exposure).iris.state = .moving ∧
    (State.reset.internalMove .iris 10 .exposure).iris.state = .unhomed ∧
    ((withAxis .iris (fun r => { r with hold := .released }) home).internalMove .iris 12 .exposure).iris.state = .waking ∧
    ((settling .iris .host .reached).internalMove .iris 10 .exposure).iris.joined = some .exposure := by decide
theorem test_internal_retargets :
    ((withAxis .focus (fun r => { r with state := .waking, mover := some .host, releaseAtRest := true }) home).internalMove
      .focus 900 .tracking).focus.joined = some .tracking ∧
    ((withAxis .focus (fun r => { r with state := .moving, mover := some .sweep, stopPending := .clear, releaseAtRest := true })
      home).internalMove .focus 900 .tracking).focus.releaseAtRest = false ∧
    ((settling .iris .host .stopped).internalMove .iris 10 .exposure).iris.ending = .reached := by decide

/-- A load is in flight, with an offset of 25 against a reference of 5. -/
def loaded (s : State) : State := { s with handoffs := { s.handoffs with loads := [⟨{ (entry 4).facts with offset := 25 }, 5⟩] } }

theorem test_tracking : (ex .trackingLoad (loaded home)).focus.target = some 1020 ∧
    (ex .trackingLoad (loaded State.reset)).focus.target = none ∧
    (ex .trackingLoad (loaded (settling .focus .host .stopped))).travel.owed = 20 := by decide
theorem test_owed : ({ home with travel := { home.travel with owedMark := true, owed := -4095 } } : State).applyOwed.focus.target =
      some 500 ∧ home.applyOwed = home ∧ home.focusHomed = home := by decide

/-! ### The sweep and the pins -/

/-- Parameters of SWEEP_START from 1000 to 1100 by 50, PEAK with margin 10. -/
def sweepFrame : Bytes := u16 1000 ++ u16 1100 ++ u8 50 ++ [1#8] ++ u16 10

theorem test_sweepStart : sweepParams sweepFrame = some ⟨1000, 1100, 50, .peak 10⟩ ∧ home.takeHandoffs = home ∧
    (ex (.sweepStart sweepFrame) home).sweep.record.stopsPlanned = 3 ∧ (ex (.sweepStart sweepFrame) home).focus.state = .settling ∧
    (ex (.sweepStart sweepFrame) home).resolver.sweepPin = true := by decide
theorem test_sweepStart_refused : res (.sweepStart sweepFrame) State.reset = some .notHomed ∧
    res (.sweepStart sweepFrame) (withAxis .focus (fun r => { r with state := .fault }) home) = some .axisFault ∧
    res (.sweepStart sweepFrame) (withAxis .focus (fun r => { r with completion := ⟨true, none, none, none⟩ }) home) =
      some .uncollected ∧
    res (.sweepStart sweepFrame) (sweeping .travelling .host) = some .busy ∧
    res (.sweepStart sweepFrame) (moving 200 .none) = some .busy ∧ res (.sweepStart sweepFrame) unresolved = some .noLens ∧
    res (.sweepStart (u16 499 ++ u16 1100 ++ u8 50 ++ [1#8] ++ u16 10)) home = some .outOfLimits := by decide
theorem test_sweepStart_limits : res (.sweepStart (u16 500 ++ u16 3000 ++ u8 50 ++ [1#8] ++ u16 10)) home = some .started ∧
    res (.sweepStart (u16 500 ++ u16 3001 ++ u8 50 ++ [1#8] ++ u16 10)) home = some .outOfLimits ∧
    res (.sweepStart (u16 3001 ++ u16 3000 ++ u8 50 ++ [1#8] ++ u16 10)) home = some .outOfLimits ∧
    res (.sweepStart (u16 500 ++ u16 499 ++ u8 50 ++ [1#8] ++ u16 10)) home = some .outOfLimits ∧
    ex (.sweepStart sweepFrame) (reported unresolved [(1, true)]) = (reported unresolved [(1, true)]).answer ⟨.noLens, []⟩ ∧
    res (.sweepStart sweepFrame) (reported unresolved [(0, true)]) = some .started := by decide
theorem test_sweepRefusal : State.reset.sweepRefusal = some .notHomed ∧
    (withAxis .focus (fun r => { r with ownership := .sweep }) home).sweepRefusal = some .busy ∧
    (moving 200 .none).sweepRefusal = some .busy ∧ unresolved.sweepRefusal = some .noLens ∧ home.sweepRefusal = none := by decide
theorem test_beginSweep : (home.beginSweep .half ⟨1000, 1100, 50, .peak 10⟩).1.sweep.record.stopNumber = some 1 ∧
    (home.beginSweep .half ⟨400, 600, 50, .peak 10⟩).1.sweep.record.skipped = 2 ∧
    (home.beginSweep .half ⟨400, 600, 50, .peak 10⟩).1.sweep.record.stopPosition = some 500 ∧
    (home.beginSweep .half ⟨0, 400, 50, .peak 10⟩).2 = some .miss ∧
    (home.beginSweep .half ⟨0, 400, 50, .peak 10⟩).1.sweep.record.skipped = 9 ∧
    (home.beginSweep .half ⟨0, 400, 50, .peak 10⟩).1.resolver.sweepPin = false := by decide
theorem test_stopAt : (⟨1000, 1100, 50, .peak 10⟩ : SweepParams).stopAt 2 = 1050 ∧
    (⟨1100, 1000, 50, .peak 10⟩ : SweepParams).stopAt 2 = 1050 ∧ (⟨1000, 1090, 50, .peak 10⟩ : SweepParams).stopAt 3 = 1090 := by
  decide
theorem test_sweepPreset : (ex (.sweepPreset sweepFrame) home).sweep.preset = ⟨1000, 1100, 50, .peak 10⟩ := by decide

/-- FOCUS rests at stop 1 and a figure is awaited. -/
def awaited (f : SweepRecord → SweepRecord) : State := { (sweeping .awaiting .host) with
  focus := { home.focus with ownership := .sweep }
  sweep := { (sweeping .awaiting .host).sweep with
    record := f { (sweeping .awaiting .host).sweep.record with awaiting := true }, deadline := true } }

theorem test_contrast : ans (.sweepContrast (u16 300)) (awaited id) = some ⟨.done, [1#8, 0#8, 0#8]⟩ ∧
    (ex (.sweepContrast (u16 300)) (awaited id)).sweep.record.stopPosition = some 1050 ∧
    res (.sweepContrast (u16 300)) home = some .notAwaiting := by decide
theorem test_contrast_ends : ans (.sweepContrast (u16 300)) (awaited fun r => { r with releasePending := true }) =
      some ⟨.done, [1#8, 0#8, 3#8]⟩ ∧
    ans (.sweepContrast (u16 300)) (awaited fun r => { r with params := ⟨1000, 1100, 50, .reach 300⟩ }) =
      some ⟨.done, [1#8, 0#8, 1#8]⟩ ∧
    (ex (.sweepContrast (u16 290)) (awaited fun r => { r with best := some ⟨300, 900, 1⟩ })).sweep.record.state = .returning ∧
    ans (.sweepContrast (u16 300)) (awaited fun r => { r with stopNumber := some 3 }) = some ⟨.done, [3#8, 0#8, 2#8]⟩ := by decide
theorem test_contrast_skips : (ex (.sweepContrast (u16 300)) { awaited id with
      resolver := { pinned.resolver with record := { pinned.resolver.record with facts :=
        { (entry 4).facts with far := 1060 } } } }).sweep.record.skipped = 1 := by decide
theorem test_deadline : (ex .contrastDeadlineExpiry (awaited id)).sweep.record.outcome = some .overrun ∧
    (ex .contrastDeadlineExpiry (awaited fun r => { r with releasePending := true })).sweep.record.outcome = some .released := by
  decide
theorem test_sweepEnd : ((sweeping .returning .host).endSweep .hit).focus.completion.summary =
      some ⟨3, 1, 0, 0, none, none, none⟩ ∧
    ((sweeping .returning .half).endSweep .hit).resolver.sweepPin = false := by decide
theorem test_sweepStop : (ex (.axisStop [1#8]) (sweeping .travelling .half)).sweep.record.state = .stopping ∧
    res (.axisStop [1#8]) (sweeping .stopping .host) = some .started ∧
    (ex (.axisStop [1#8]) (awaited id)).sweep.record.outcome = some .stopped := by decide

theorem test_releasePin : home.releasePin .slot = home ∧ (pinned.releasePin .sweep).handoffs.drains = 1 ∧
    (({ pinned with resolver := { pinned.resolver with slotPin := true } } : State).releasePin .slot).handoffs.pins = 1 ∧
    (({ pinned with resolver := { pinned.resolver with deferred := true, pendingCode := some 3 } } : State).releasePin
      .sweep).resolver.context = 3 := by decide
theorem test_pinNotice : (ex .pinReleaseNotice { home with handoffs := { home.handoffs with pins := 1 } }).handoffs.pins = 0 ∧
    (ex .pinReleaseNotice { home with
      handoffs := { home.handoffs with pins := 1 }
      release := { home.release with burst := ⟨true, 1, none, true, none, false⟩ } }).release.lastRefusal = some .noExposure := by
  decide

/-! ### Metering -/

/-- Metering is enabled with a trigger. -/
def metering (k : Trigger) : State := { home with meter := { home.meter with enabled := true, setup := { home.meter.setup with trigger := k } } }

/-- A sweep of zones 6 and 7 is at zone `z` in a phase. -/
def measuring (z : Fin 8) (p : Phase) : State := { home with meter := { home.meter with
  running := true, working := some ⟨6, 7, .single, 4096⟩, zone := some z, phase := some p } }

theorem test_meter_trigger : (ex .frameStartPulse (metering .frame)).meter.zone = some 0 ∧
    ex .frameStartPulse (metering .half) = metering .half ∧ ex .frameStartPulse home = home := by decide
theorem test_meter_setup : meterParams [6#8, 7#8, 0#8, 1#8, 0#8, 1#8, 1#8] = some ⟨6, 7, .single, .frame, 256, true⟩ ∧
    res (.meterSetup [6#8, 7#8, 0#8, 1#8, 0#8, 1#8, 1#8]) (metering .frame) = some .busy ∧
    (ex (.meterSetup [6#8, 7#8, 0#8, 1#8, 0#8, 1#8, 1#8]) home).meter.setup.target = 256 := by decide
theorem test_meter_requests : (ex (.meterEnable [1#8]) home).meter.enabled = true ∧ res (.meterStart []) home = some .wrongState ∧
    res (.meterStart []) (metering .request) = some .started ∧
    res (.meterStart []) { metering .request with meter := { (metering .request).meter with running := true } } = some .busy ∧
    (ex (.meterStop []) (measuring 6 .sensor)).meter.zone = none ∧ ex (.meterStop []) home = home.answer ⟨.done, []⟩ := by decide
theorem test_meter_marks : res (.meterClear []) home = some .done ∧ (ex (.meterReference [1#8]) home).meter.reference = true ∧
    res (.meterReference [1#8]) (measuring 6 .sensor) = some .busy := by decide
theorem test_zone_reference : (ex (.referenceTargetReached 1) (measuring 6 .reference)).meter.phase = some .sensor ∧
    (ex (.referenceTargetReached 1048574) (measuring 6 .reference)).meter.referenceTime = some 1048574 ∧
    (ex (.timeBaseExhausted 4096) (measuring 6 .reference)).meter.zones[(6 : Fin 8)].result = ⟨.refFault, none⟩ ∧
    (ex (.referenceTargetReached 9) { measuring 7 .reference with meter := { (measuring 7 .reference).meter with
      reference := true } }).meter.zones[(7 : Fin 8)].result = ⟨.ref, some 9⟩ := by decide
theorem test_zone_sensor : (ex (.sensorPhaseEnd 16) (measuring 6 .sensor)).meter.zones[(6 : Fin 8)].result = ⟨.ok, some 64⟩ ∧
    (ex (.sensorPhaseEnd 15) (measuring 6 .sensor)).meter.zones[(6 : Fin 8)].result = ⟨.under, none⟩ ∧
    (ex (.sensorPhaseEnd 16777215) (measuring 6 .sensor)).meter.zones[(6 : Fin 8)].result = ⟨.ok, some 383⟩ ∧
    (ex (.sensorPhaseEnd 16777216) (measuring 6 .sensor)).meter.zones[(6 : Fin 8)].result = ⟨.over, none⟩ := by decide
theorem test_pass : (ex (.sensorPhaseEnd 16) (measuring 6 .sensor)).meter.zone = some 7 ∧
    (ex (.sensorPhaseEnd 16) (measuring 7 .sensor)).handoffs.scenes.length = 1 ∧
    (ex (.sensorPhaseEnd 16) (measuring 7 .sensor)).meter.running = false ∧
    (ex (.sensorPhaseEnd 16) { measuring 7 .sensor with meter := { (measuring 7 .sensor).meter with
      enabled := true, working := some ⟨6, 7, .continuous, 4096⟩ } }).meter.zone = some 6 := by decide

/-! ### Exposure -/

/-- A pass with two zones counted, 100 and OVER, has been handed over. -/
def passed (lock : AeLock) : State := { home with
  handoffs := { home.handoffs with scenes := [(Vector.replicate 8 ⟨.none, none⟩ |>.set 0 ⟨.ok, some 100⟩).set 1 ⟨.over, none⟩] }
  exposure := { home.exposure with lock := lock } }

theorem test_scene : (ex .sceneCompute (passed .none)).exposure.scene = ⟨some ⟨242, 3, 239⟩, false, 1⟩ ∧
    (ex .sceneCompute (passed .pending)).exposure.lock = .held 239 false ∧
    (ex .sceneCompute { passed .pending with handoffs := { home.handoffs with
      scenes := [Vector.replicate 8 ⟨.refFault, none⟩] } }).exposure.scene = ⟨none, false, 1⟩ := by decide
theorem test_lock : ans (.aeLock []) home = some ⟨.done, [1#8, 0#8, 0#8, 0#8]⟩ ∧
    ans (.aeLock []) { home with exposure := { home.exposure with scene := ⟨some ⟨242, 3, 239⟩, false, 1⟩ } } =
      some ⟨.done, [2#8, 1#8, 239#8, 0#8]⟩ ∧ res (.aeUnlock []) home = some .done := by decide

/-- EXPOSURE_SETUP: weights 1, compensation -48, AUTO, manual 8000 us, iris 63, gain 96. -/
def exposureFrame : Bytes := List.replicate 8 1#8 ++ s8 (-48) ++ u8 0 ++ u24 8000 ++ u8 63 ++ u8 96

theorem test_exposureSetup : (exposureParams exposureFrame).isSome = true ∧
    (ex (.exposureSetup exposureFrame) home).exposure.setup.compensation = -48 := by decide

/-- A point of a program: 20 us, iris 0, gain 96, from an EV. -/
def pointFrame (ev : Int) : Bytes := s16 ev ++ u24 20 ++ u8 0 ++ u8 96

theorem test_program : ans (.programWrite ([1#8, 1#8] ++ pointFrame 0)) home = some ⟨.done, [1#8, 1#8]⟩ ∧
    ans (.programWrite ([2#8, 1#8] ++ pointFrame 0)) home = some ⟨.done, [1#8, 0#8]⟩ ∧
    res (.programWrite ([1#8, 2#8] ++ pointFrame 0)) home = some .badParameter ∧
    ans (.programWrite [0#8, 1#8]) home = some ⟨.done, [0#8, 1#8]⟩ := by decide
theorem test_solve : home.exposure.setup.mode = .auto ∧ home.exposure.solve 8 = none ∧
    (({ home.exposure with program := [⟨0, ⟨20, 0, 96⟩⟩], lock := .held 0 false } : ExposureUnit).solve 8).map (fun x => x.deficit) =
      some (some 8) ∧
    (({ home.exposure with setup := { home.exposure.setup with mode := .manual } } : ExposureUnit).solve 0).map
      (fun x => x.solved) = some ⟨8000, 0, 0⟩ := by decide

/-! ### The Stabilizer -/

/-- The Stabilizer in a state. -/
def stable (st : StabState) : State := { home with stab := { home.stab with
  enabled := true, state := st, gain := 4096, resolved := true, silenceTimer := true, exposureOpen := true } }

theorem test_gyro_states : ex (.gyroSample 1#8 0#8 0#8 0#8) home = home ∧
    (ex (.gyroSample 1#8 0#8 0#8 0#8) (stable .held)).stab.state = .held ∧
    (ex (.gyroSample 1#8 0#8 0#8 0#8) (stable .fault)).stab.state = .centering ∧
    (ex (.gyroSample 1#8 0#8 0#8 0#8) { stable .fault with stab := { (stable .fault).stab with resolved := false } }).stab.state =
      .held ∧ ex (.gyroTransferDiscarded [1#8]) home = home := by decide
theorem test_gyro_centering : (ex (.gyroSample 1#8 0#8 0#8 0#8) (stable .centering)).handoffs.steady = 1 ∧
    (ex (.gyroSample 1#8 0#8 0#8 0#8) { stable .centering with stab := { (stable .centering).stab with
      yaw := ⟨-600, 0, 0, 0, false⟩ } }).stab.yaw.position = -596 := by decide
theorem test_gyro_active : (ex (.gyroSample 0xFF#8 0xFF#8 0#8 0#8) (stable .active)).stab.yaw.position = -1 ∧
    (ex (.gyroSample 0#8 0x7D#8 0#8 0#8) (stable .active)).stab.limitMark = true ∧
    (ex (.gyroSample 0#8 0x7D#8 0#8 0#8) { stable .active with stab := { (stable .active).stab with
      yaw := ⟨0, 0, 49, 0, false⟩ } }).stab.leftActive = true := by decide
theorem test_gyro_panning : (ex (.gyroSample 0#8 0#8 0#8 0#8) { stable .panning with stab := { (stable .panning).stab with
      yaw := ⟨5, 0, 0, 49, true⟩ } }).stab.state = .centering ∧
    (ex (.gyroSample 0#8 0#8 0#8 0#8) { stable .panning with stab := { (stable .panning).stab with
      yaw := ⟨5, 0, 0, 48, true⟩ } }).stab.state = .panning := by decide

/-- A notice to the Stabilizer is in flight. -/
def told (n : StabNotice) (s : State) : State := { s with handoffs := { s.handoffs with stab := [n] } }

theorem test_stab_notices : (ex .stabLoadNotice (told (.load 255) (stable .held))).stab.state = .centering ∧
    (ex .stabLoadNotice (told (.load 255) (stable .active))).stab.gain = 255 ∧
    (ex .stabUnresolvedNotice (told .unresolved (stable .active))).stab.leftActive = true ∧
    (ex .stabUnresolvedNotice (told .unresolved (stable .fault))).stab.state = .fault := by decide
theorem test_stab_silence : (ex .silenceTimerExpiry (stable .panning)).stab.faultUnread = true := by decide
theorem test_stab_setup : stabParams [1#8, 0#8, 0#8] = some (true, 0) ∧
    (ex (.stabSetup [1#8, 0#8, 0#8]) home).stab.state = .held ∧ (ex (.stabSetup [1#8, 0#8, 0#8]) { home with stab :=
      { home.stab with resolved := true } }).stab.state = .centering ∧
    (ex (.stabSetup [0#8, 0#8, 0#8]) (stable .active)).stab.state = .off ∧
    (ex (.stabSetup [1#8, 0#8, 0#8]) (stable .active)).stab.panThreshold = 0 := by decide

/-! ### The release -/

/-- A line's debounce runs, with the contacts as given. -/
def pressed (half full halfTaken fullTaken : Bool) : State := { home with
  pins := { home.pins with halfClosed := half, fullClosed := full }
  release := { home.release with
    halfDebounce := true, fullDebounce := true, halfTaken := halfTaken, fullTaken := fullTaken } }

theorem test_switch_change : (ex (.switchLineChange .half true) home).release.halfDebounce = true ∧
    (ex (.switchLineChange .full true) home).release.fullDebounce = true := by decide
theorem test_switch_half : (ex (.switchDebounceExpiry .half) (pressed true false false false)).release.state = .preparing ∧
    (ex (.switchDebounceExpiry .half) (pressed false false true false)).release.state = .opened ∧
    (ex (.switchDebounceExpiry .half) (pressed false true true true)).release.halfTaken = false ∧
    (ex (.switchDebounceExpiry .half) (pressed true false true false)).release.halfDebounce = false := by decide
theorem test_switch_full : (ex (.switchDebounceExpiry .full) (pressed true true false false)).release.lastRefusal =
      some .noExposure ∧
    (ex (.switchDebounceExpiry .full) (pressed true false true true)).release.fullTaken = false ∧
    (ex (.switchDebounceExpiry .full) (pressed false false false true)).release.state = .opened ∧
    (ex (.switchDebounceExpiry .full) (pressed true true true true)).release.fullDebounce = false := by decide
theorem test_switch_wakes : ({ pressed true false false false with standby := true } : State).release.halfDebounce = true ∧
    (∃ t, exec (.switchDebounceExpiry .half) { pressed true false false false with standby := true } = .next t) ∧
    ∃ t, exec (.switchDebounceExpiry .full) { pressed false true false false with standby := true } = .next t :=
  ⟨rfl, ⟨_, rfl⟩, _, rfl⟩
theorem test_switch_full_only : (ex (.switchDebounceExpiry .full) (pressed false true false false)).release.halfTaken = false ∧
    (ex (.switchDebounceExpiry .full) (pressed false true false false)).release.fullTaken = true := by decide

/-- The release in a state, with both contacts taken. -/
def release (f : Release → Release) : State := { home with
  release := f { home.release with halfTaken := true, fullTaken := true } }

theorem test_halfPress : home.halfPress.release.lockAwaited = true ∧ home.halfPress.exposure.lock = .pending ∧
    (release fun r => { r with setup := { r.setup with aeLockOnHalf := false } }).halfPress.release.state = .ready := by decide
theorem test_halfPress_sweep : home.sweepRefusal = none ∧ (home.beginSweep .half home.sweep.preset).2 = none ∧
    home.halfPressSweep.release.sweepOwed = true ∧ State.reset.sweepRefusal = some .notHomed ∧
    State.reset.halfPressSweep.release.sweepOutcome = some .afSkipped ∧
    (home.beginSweep .half ⟨0, 10, 1, .peak 1⟩).2 = some .miss := by decide
theorem test_fullPress : (release fun r => { r with state := .ready }).fullPress.release.burst.endReason = some .noExposure ∧
    (release fun r => { r with state := .preparing, setup := { r.setup with focusPriority := true }, sweepOwed := true
      }).fullPress.release.awaitingFocus = true ∧
    (release fun r => { r with state := .ready, setup := { r.setup with focusPriority := true } }).fullPress.release.lastRefusal =
      some .notFocused ∧
    (release fun r => { r with state := .finishing }).fullPress.release.lastRefusal = some .busy := by decide
theorem test_fullLetGo : (release fun r => { r with state := .firing, stallTimer := true }).fullLetGo.release.burst.endReason =
      some .released ∧
    (release fun r => { r with state := .firing, awaitingFocus := true }).fullLetGo.release.state = .ready ∧
    (release fun r => { r with state := .opened }).fullLetGo.release.state = .opened ∧
    (release fun r => { r with state := .ready }).halfLetGo.release.state = .opened := by decide

/-- A picture of 100 us at iris 10. -/
def shot (index : Nat) : Shot := ⟨.switch, 1, index, ⟨100, 10, 0⟩, none, none, 0, 4, 110⟩

/-- Slot 0 in a state, named by the exposure control, with 64 blocks reserved of 100. -/
def slotted (st : SlotState) (index : Nat) : State := { home with
  resolver := { home.resolver with slotPin := true }
  iris := { home.iris with ownership := .exposure }
  release := { home.release with
    state := .firing, halfTaken := true, fullTaken := true, storeFree := 100, burst := ⟨true, 1, some 0, false, none, false⟩
    slots := home.release.slots.set 0 ⟨st, some (shot index), none, none, some 64, none, false⟩
    control := ⟨some 0, false, .met⟩ } }

theorem test_fullLetGo_slot : (slotted .armed 0).fullLetGo.release.state = .finishing ∧
    (slotted .exposing 0).fullLetGo.release.finishingOn = some 0 ∧
    ((slotted .armed 1).fullLetGo.release.slots[(0 : Fin 12)]).state = .free := by decide

/-- IRIS wakes or moves for slot 0, or for the host's move that it has joined. -/
def irisGoing (st : AxisState) (m : Mover) (joined : Option Mover) : State := { slotted .armed 0 with
  iris := { (slotted .armed 0).iris with
    state := st, target := some 12, mover := some m, joined := joined, stepTimer := some 1, wakeTimer := some 2 } }

theorem test_stop_exposure : ((ex (.axisStop [2#8]) (irisGoing .moving .exposure none)).release.slots[(0 : Fin 12)]).state = .free ∧
    (ex (.axisStop [2#8]) (irisGoing .moving .exposure none)).release.lastRefusal = some .busy ∧
    (ex (.axisStop [2#8]) (irisGoing .moving .exposure none)).release.burst.endReason = some .busy ∧
    (ex (.axisStop [2#8]) (irisGoing .waking .host (some .exposure))).iris.ownership = .none ∧
    (ex (.axisStop [2#8]) (irisGoing .waking .host (some .exposure))).resolver.slotPin = false ∧
    ((ex (.axisStop [2#8]) (irisGoing .moving .host none)).release.slots[(0 : Fin 12)]).state = .armed ∧
    ex (.axisStop [2#8]) (irisGoing .settling .exposure none) = (irisGoing .settling .exposure none).answer ⟨.done, []⟩ := by decide
theorem test_irisStopped : home.irisStopped = home ∧ (slotted .exposing 0).irisStopped = slotted .exposing 0 ∧
    ((slotted .armed 0).irisStopped.release.slots[(0 : Fin 12)]).state = .free := by decide
theorem test_cancelArm : ((slotted .armed 0).cancelArm 0 (some .busy) .busy).release.burst.running = false ∧
    ((slotted .armed 0).cancelArm 0 none .released).release.lastRefusal = none ∧
    ((slotted .armed 0).cancelArm 1 none .released).release.burst.running = true ∧
    (({ slotted .armed 0 with release := { (slotted .armed 0).release with
      state := .finishing, finishingOn := some 0, burst := ⟨false, 1, none, false, none, false⟩ } } : State).cancelArm 0
        (some .busy) .busy).release.state = .ready := by decide

/-- A half-press sweep's outcome is owed, and a full press may wait for it. -/
def owed (waits : Bool) (st : ReleaseState) : State := { home with release := { home.release with
  state := st, sweepOwed := true, awaitingFocus := waits, sweepOutcome := some .running
  burst := ⟨waits, 0, none, false, none, false⟩ } }

theorem test_outcome : (home.sweepOutcomeNotice .hit).release.sweepOutcome = none ∧
    ((owed false .preparing).sweepOutcomeNotice .miss).release.sweepOutcome = some (.ended .miss) ∧
    ((owed false .preparing).sweepOutcomeNotice .miss).release.state = .ready ∧
    ((owed true .firing).sweepOutcomeNotice .hit).release.lastRefusal = some .noExposure ∧
    ((owed true .firing).sweepOutcomeNotice .overrun).release.burst.endReason = some .notFocused := by decide

/-- MANUAL exposure at 20 us, iris 10, with space in the store. -/
def armable : State := { home with
  exposure := { home.exposure with setup := { home.exposure.setup with mode := .manual, manual := ⟨20, 10, 96⟩ } }
  release := { home.release with storeFree := 64 } }

theorem test_arm : ans (.shoot []) armable = some ⟨.done, [0#8, 1#8, 0#8, 0#8, 0#8]⟩ ∧
    (ex (.shoot []) armable).resolver.slotPin = true ∧ (ex (.shoot []) armable).iris.state = .settling ∧
    armable.takeReports = armable := by decide
theorem test_arm_refused : res (.shoot []) { armable with meter := { armable.meter with reference := true } } = some .wrongState ∧
    res (.shoot []) unresolved = some .noLens ∧ res (.shoot []) (moving 200 .none) = some .busy ∧
    res (.shoot []) (withAxis .iris (fun r => { r with state := .unhomed }) armable) = some .notHomed ∧
    res (.shoot []) home = some .noExposure := by decide
theorem test_arm_refused_slot : res (.shoot []) { slotted .armed 0 with exposure := armable.exposure } = some .busy ∧
    res (.shoot []) { armable with release := { armable.release with
      slots := Vector.replicate 12 ⟨.exposed, none, none, none, some 0, none, false⟩ } } = some .noSlot ∧
    res (.shoot []) { armable with release := { armable.release with storeFree := 63 } } = some .noCapacity := by decide
theorem test_arm_reports :
    res (.shoot []) (reported { armable with map := LensMap.reset } [(0, false)]) = some .noLens ∧
    (ex (.shoot []) (reported { armable with map := LensMap.reset } [(0, false)])).exposure.solution.isSome = true ∧
    (ex (.shoot []) (reported { armable with map := LensMap.reset } [(0, false)])).resolver.slotPin = false ∧
    res (.shoot []) (reported { armable with resolver := unresolved.resolver } [(0, true)]) = some .done ∧
    (reported { armable with resolver := unresolved.resolver } [(0, true)]).takeReports.resolver.record.resolved = true := by decide
theorem test_armBurst : (armable.armBurst).release.burst.current = some 0 ∧
    (({ home with release := { home.release with state := .firing } } : State).armBurst).release.burst.endReason =
      some .noExposure := by decide

/-- The exposure control changed. -/
def controlled (s : State) (c : ExposureControl) (timer : Bool) : State :=
  { s with release := { s.release with control := c, steadyTimer := timer } }

theorem test_exposure_iris : (slotted .armed 0).irisSettled.release.expose = true ∧
    (controlled (slotted .armed 0) ⟨some 0, false, .waiting⟩ true).irisSettled.release.control.irisSettled = true ∧
    (withAxis .iris (fun r => { r with position := some 11 }) (slotted .armed 0)).irisSettled.release.expose = false := by decide
theorem test_exposure_steady :
    (ex .steadyWaitExpiry (controlled (slotted .armed 0) ⟨some 0, true, .waiting⟩ true)).release.exposureTimer = some 100 ∧
    (ex .steadyWaitExpiry (controlled (slotted .armed 0) ⟨some 0, false, .waiting⟩ true)).release.control.steady = .expired ∧
    (ex .steadyNotice { controlled (slotted .armed 0) ⟨some 0, true, .waiting⟩ true with
      handoffs := { home.handoffs with steady := 1 } }).release.expose = true ∧
    (ex .steadyNotice { controlled (slotted .armed 0) ⟨some 0, false, .waiting⟩ true with
      handoffs := { home.handoffs with steady := 1 } }).release.control.steady = .met ∧
    (ex .steadyNotice { slotted .armed 0 with handoffs := { home.handoffs with steady := 1 } }).release.expose = false := by decide
theorem test_exposure_told : (told .unresolved { slotted .armed 0 with stab := (stable .active).stab }).irisSettled.stab.leftActive =
      true ∧ (told .unresolved (slotted .armed 0)).irisSettled.handoffs.stab = [] := by decide

/-- Slot 0 exposes and its timer runs. -/
def exposing : State := { slotted .exposing 0 with release := { (slotted .exposing 0).release with
  exposureTimer := some 100, shutter := true, expose := true } }

theorem test_exposure_end : ((ex .exposureTimerExpiry exposing).release.slots[(0 : Fin 12)]).state = .exposed ∧
    (ex .exposureTimerExpiry exposing).iris.ownership = .none ∧ (ex .exposureTimerExpiry exposing).handoffs.pins = 1 ∧
    (ex .exposureTimerExpiry exposing).release.burst.endReason = some .limit := by decide

/-- Slot 0 as SLOT_DEVELOPED and SLOT_STORED find it. -/
def retiring (t : Slot) : State := { slotted .exposed 0 with release := { (slotted .exposed 0).release with
  slots := home.release.slots.set 0 t } }

theorem test_developed : developedParams [0#8, 64#8, 0#8, 0#8] = some (0, 64) ∧
    res (.slotDeveloped [0#8, 64#8, 0#8, 0#8]) (slotted .exposed 0) = some .done ∧
    res (.slotDeveloped [0#8, 100#8, 0#8, 0#8]) (slotted .exposed 0) = some .done ∧
    res (.slotDeveloped [0#8, 101#8, 0#8, 0#8]) (slotted .exposed 0) = some .noCapacity ∧
    res (.slotDeveloped [1#8, 64#8, 0#8, 0#8]) (slotted .exposed 0) = some .wrongState := by decide
theorem test_stored : (ex (.slotStored [0#8]) (retiring ⟨.developed, some (shot 0), none, none, none, some 40, false⟩)).release.storeFree =
      60 ∧ res (.slotStored [0#8]) home = some .wrongState := by decide
theorem test_discard : res (.slotDiscard [0#8]) home = some .wrongState ∧
    ((ex (.slotDiscard [0#8]) (slotted .exposed 0)).release.slots[(0 : Fin 12)]).state = .free ∧
    (ex (.slotDiscard [0#8]) (slotted .armed 0)).iris.ownership = .none ∧
    (ex (.slotDiscard [0#8]) exposing).release.shutter = false := by decide
theorem test_capacity : capacityParam (u24 64) = some 64 ∧ res (.storeCapacity (u24 64)) (slotted .armed 0) = some .done ∧
    res (.storeCapacity (u24 63)) (slotted .armed 0) = some .noCapacity := by decide
theorem test_release_setups : (ex (.releaseSetup [1#8, 99#8, 1#8, 0#8, 0#8, 0#8]) home).release.setup.burstLimit = 99 ∧
    (ex (.sizeTableWrite (u16 1 ++ u16 2 ++ u16 3 ++ u16 65535)) home).release.sizeTable[(3 : Fin 4)] = 65535 := by decide
theorem test_stall : home.slotFreed = home ∧
    (release fun r => { r with state := .firing, stallTimer := true }).slotFreed.release.stallTimer = false ∧
    (ex .stallTimerExpiry (release fun r => { r with state := .firing, stallTimer := true })).release.burst.endReason =
      some .stalled := by decide

/-- The record of slot 0's burst with a limit of two shots. -/
def burst (shots : Nat) : Release := { (slotted .exposed 0).release with
  setup := ⟨.burst, 2, false, false, true, true⟩, burst := ⟨true, shots, some 0, false, none, false⟩ }

theorem test_nextShot : ((burst 2).nextShot 0).burst.endReason = some .limit ∧ ((burst 1).nextShot 0).burst.shotDue = true ∧
    (({ burst 1 with slots := Vector.replicate 12 ⟨.exposed, none, none, none, none, none, false⟩ } : Release).nextShot
      0).stallTimer = true ∧ (burst 1).nextShot 1 = burst 1 := by decide
theorem test_finish : (({ burst 1 with state := .finishing, finishingOn := some 0, fullTaken := false } : Release).finish 0).state =
      .ready ∧
    (({ burst 1 with state := .finishing, finishingOn := some 0, fullTaken := false, halfTaken := false } : Release).finish
      0).state = .opened ∧ (burst 1).finish 0 = burst 1 := by decide
theorem test_releaseLaw : (slotted .armed 0).release.Law ∧ ∃ t, step { slotted .armed 0 with pending := [.shoot []] } = .next t :=
  ⟨by unfold Release.Law; decide, _, rfl⟩

/-! ### The whole part -/

theorem test_clear : res (.clear []) home = some .done ∧ (exposing.clearParts true true true).release.state = .opened ∧
    (exposing.clearParts false false false).release.shutter = false ∧
    ((moving 112 .none).clearParts false true false).zoom.stopPending = .clear ∧
    (atEdge.clearParts true false true).zoom.state = .idle := by decide
theorem test_clear_axes : ((settling .iris .host .reached).clearParts true true true).iris.state = .idle ∧
    ((homing .zoom 3 .none).clearParts true true true).zoom.stopPending = .clear ∧
    ((withAxis .zoom (fun r => { r with wakeTimer := some 5 }) (homing .zoom 3 .none)).clearParts false false true).zoom.state =
      .unhomed ∧ ((sweeping .travelling .host).clearParts true true true).sweep.record.state = .ended ∧
    ((stable .active).clearParts true true true).stab.state = .centering := by decide
theorem test_clear_resolver : ((home.clearResolver).handoffs.loads.length = 1 ∧
    ({ home with map := LensMap.reset } : State).clearResolver.resolver.miss = some ⟨0, 4, .wake⟩ ∧
    ({ home with zoom := AxisRecord.reset .zoom } : State).clearResolver.handoffs.stab = [.unresolved] ∧
    ({ pinned with resolver := { pinned.resolver with pendingCode := some 3, deferred := true } } : State).clearResolver.resolver.miss =
      some ⟨3, 4, .wake⟩) := by decide
theorem test_clear_focus : ((settling .focus .host .reached).clearAxis .focus).focus.state = .idle ∧
    ((withAxis .focus (fun r => { r with position := some 0 }) (settling .focus .host .homed)).clearAxis .focus).focus.target =
      some 500 ∧
    ((withAxis .focus (fun r => { r with state := .moving, releaseAtRest := true }) home).clearAxis .focus).focus.releaseAtRest =
      true ∧
    ((withAxis .focus (fun r => { r with state := .waking }) { home with travel := ⟨false, none, none, true, 30⟩ }).clearAxis
      .focus).focus.target = some 1030 ∧
    ((settling .zoom .host .homed).clearAxis .zoom).handoffs.loads.length = 1 ∧ home.clearAxis .focus = home ∧
    ((homing .focus 3 .none).clearAxis .focus).focus.stopPending = .clear ∧
    ((withAxis .focus (fun r => { r with wakeTimer := some 5 }) (homing .focus 3 .none)).clearAxis .focus).focus.state =
      .unhomed := by decide
theorem test_clear_stab : ((stable .fault).clearParts false false false).stab.state = .centering ∧
    ((told .unresolved (stable .active)).clearParts false false true).stab.state = .centering ∧
    ((told .unresolved { stable .active with zoom := AxisRecord.reset .zoom }).clearParts true false true).stab.state = .held ∧
    (home.clearParts true true true).stab.state = .off := by decide
theorem test_standby : scopeParam [1#8] = some .locked ∧ res (.standby [1#8]) (moving 112 .none) = some .busy ∧
    res (.standby [1#8]) home = some .done ∧ (ex (.standby [1#8]) home).standby = true ∧
    ((ex (.standby [1#8]) home).map.entries[(0 : Fin 32)]).valid = false ∧
    ((ex (.standby [0#8]) home).map.entries[(0 : Fin 32)]).valid = true := by decide
theorem test_standby_waits : (ex (.standby [1#8]) home).entering = true ∧ (ex (.standby [1#8]) home).zoom.hold = .energized ∧
    (ex .ownerPlacesAnswer (ex (.standby [1#8]) home)).zoom.hold = .released ∧
    (ex .ownerPlacesAnswer (ex .frameStartPulse (ex (.standby [1#8]) (metering .frame)))).meter.running = false ∧
    (ex .ownerPlacesAnswer (ex .frameStartPulse (ex (.standby [1#8]) (metering .frame)))).meter.working =
      some ⟨0, 7, .single, 4096⟩ ∧ home.finishEntry = home := by decide
theorem test_standby_scenes : (ex (.standby [0#8]) (passed .pending)).exposure.lock = .held 239 false ∧
    (ex (.standby [0#8]) (passed .pending)).handoffs.scenes = [] ∧
    (ex .ownerPlacesAnswer (ex (.standby [0#8]) { passed .pending with
      release := { home.release with halfTaken := true } })).exposure.lock = .none ∧
    (passed .pending).release.position = .none := by decide
theorem test_standby_axes : ((moving 112 .none).standbyAxis .zoom).zoom.releaseAtRest = true ∧
    ((settling .focus .host .reached).standbyAxis .focus).focus.state = .idle ∧
    (home.standbyAxis .iris).iris.hold = .released := by decide
theorem test_standby_switch : (ex (.standby [2#8]) (release fun r => { r with state := .ready })).release.state = .ready ∧
    (ex .ownerPlacesAnswer (ex (.standby [2#8]) (release fun r => { r with state := .ready }))).release.state = .opened := by
  decide

/-- Standby entry has begun, a lock is held, and the taken levels of the switch are as given. -/
def entering (half full : Bool) : State :=
  { asleep with
    entering := true
    exposure := { asleep.exposure with lock := .held 239 false }
    release := { asleep.release with halfTaken := half, fullTaken := full } }

theorem test_standby_release : (entering false false).standbyRelease.exposure.lock = .held 239 false ∧
    (entering true false).standbyRelease.exposure.lock = .none ∧ (entering true true).release.position = .full ∧
    (entering true true).standbyRelease.exposure.lock = .none ∧ (entering true true).standbyRelease.release.position = .none := by
  decide
theorem test_press_within_entry : (entering true false).finishEntry.exposure.lock = .none ∧
    (entering true false).finishEntry.release.position = .none ∧ (entering true false).finishEntry.entering = false := by decide
theorem test_wake : res (.wake []) home = some .wrongState ∧ asleep.standby = true ∧
    (∃ t, exec (.wake []) asleep = .next t ∧ t.link = .working ⟨.done, []⟩ false) := ⟨by decide, rfl, _, rfl, rfl⟩

end Sys2Proof.Tests
end

