-- ==== Sys2Proof/Proofs/LensMapReading.lean ====
section
/-! The readings of the lens map by the host (01): MAP_READ (R9) and MAP_PROBE (R10). A ready part carries out the request
on sound parameters and refuses it on others; the owner answers from the table once the queue is empty; and the answer of a
lookup is the entry that matches the pair under R2. -/

namespace Sys2Proof.Machine

variable {s : State}

/-! ### Requests with parameters, taken by a ready part -/

/-- Sound parameters: the owner decides the answer. -/
theorem request_withParams_some {α : Type} {b : Bool} {read : Bytes → Option α} {p : Bytes} {x : α}
    {owner : α → State → State × Answer} (hs : s.ready) (hp : read p = some x) :
    request b (withParams read p owner) s = .next ((owner x s).1.answer (owner x s).2) := by
  rw [request_ready hs, withParams_some hp]

/-- Parameters that do not read: BAD_PARAMETER, whatever the owner would do (R177). -/
theorem request_withParams_none {α : Type} {b : Bool} {read : Bytes → Option α} {p : Bytes}
    {owner : α → State → State × Answer} (hs : s.ready) (hp : read p = none) :
    request b (withParams read p owner) s = .next (s.answer (plain .badParameter)) := by
  rw [request_ready hs, withParams_none hp]

/-- A byte that reaches the bound reads as no number below it. -/
theorem finParam_eq_none_of_le {n : Nat} {b : Byte} (h : n ≤ b.toNat) : finParam n [b] = none :=
  dif_neg (Nat.not_lt.mpr h)

/-- The two bytes of a pair in the ranges of R1 read as that pair. -/
theorem probeParams_bytes {c b : Nat} (hc : c ≤ 15) (hb : b ≤ 63) :
    probeParams [BitVec.ofNat 8 c, BitVec.ofNat 8 b] = some ⟨c, b⟩ := by
  have c_toNat : (BitVec.ofNat 8 c).toNat = c := Nat.mod_eq_of_lt (by omega)
  have b_toNat : (BitVec.ofNat 8 b).toNat = b := Nat.mod_eq_of_lt (by omega)
  simp [probeParams, when, c_toNat, b_toNat, hc, hb]

/-! ### The lookup -/

/-- R2 in words: a valid entry of the band, which is global or of the context. -/
theorem Entry.matchesPair_iff {e : Entry} {q : Pair} :
    e.matchesPair q = true ↔ e.valid = true ∧ e.band = q.band ∧ (e.global = true ∨ e.context = q.context) := by
  simp [Entry.matchesPair, and_assoc]

/-- The one entry that matches is the one that the lookup finds. -/
theorem LensMap.lookup_eq_some_of_unique {m : LensMap} {q : Pair} {i : Fin 32}
    (hi : (m.entries[i]).matchesPair q = true)
    (unique : ∀ j : Fin 32, (m.entries[j]).matchesPair q = true → j = i) : m.lookup q = some i := by
  refine LensMap.find_eq_some hi fun j hji => ?_
  exact Bool.eq_false_iff.mpr fun hj => hji.ne (unique j hj)

/-- The lookup finds nothing exactly when no entry matches. -/
theorem LensMap.lookup_eq_none_iff {m : LensMap} {q : Pair} :
    m.lookup q = none ↔ ∀ i : Fin 32, ¬ (m.entries[i]).matchesPair q = true := by
  simp only [Bool.not_eq_true]
  exact LensMap.find_eq_none

/-! ### The owner of MAP_READ -/

theorem mapReadOwner_of_queue_eq_nil (hq : s.map.queue = []) (i : Fin 32) :
    mapReadOwner i s = (s, done (s.map.entries[i]).bytes) := if_pos hq

theorem mapReadOwner_of_queue_ne_nil (hq : s.map.queue ≠ []) (i : Fin 32) :
    mapReadOwner i s = (s, plain .updatesPending) := if_neg hq

/-- MAP_READ of an index in its byte. -/
theorem exec_mapRead_index (hs : s.ready) (i : Fin 32) : exec (.mapRead [BitVec.ofNat 8 i.val]) s =
    .next ((mapReadOwner i s).1.answer (mapReadOwner i s).2) :=
  request_withParams_some hs (finParam_byte i (by decide))

/-- MAP_READ of a byte that is no index. -/
theorem exec_mapRead_badIndex (hs : s.ready) {b : Byte} (hb : 31 < b.toNat) :
    exec (.mapRead [b]) s = .next (s.answer (plain .badParameter)) :=
  request_withParams_none hs (finParam_eq_none_of_le hb)

/-- Settles O15: the index is read first, then the queue decides between the whole entry and UPDATES_PENDING. -/
theorem mapReadReturnsTheWholeEntry : Obligations.MapReadReturnsTheWholeEntry := by
  unfold Obligations.MapReadReturnsTheWholeEntry
  intro s hs
  refine ⟨fun i empty => ?wholeEntry, fun i waiting => ?updatesPending, fun b hb => ?badIndex⟩
  case wholeEntry =>
    rw [exec_mapRead_index hs, mapReadOwner_of_queue_eq_nil empty]
    rfl
  case updatesPending =>
    rw [exec_mapRead_index hs, mapReadOwner_of_queue_ne_nil waiting]
    rfl
  case badIndex => exact exec_mapRead_badIndex hs hb

/-! ### The owner of MAP_PROBE -/

theorem mapProbeOwner_of_lookup_eq_some (hq : s.map.queue = []) {q : Pair} {i : Fin 32} (hi : s.map.lookup q = some i) :
    mapProbeOwner q s = (s, done (u8 i.val)) := by
  simp [mapProbeOwner, hq, hi]

theorem mapProbeOwner_of_lookup_eq_none (hq : s.map.queue = []) {q : Pair} (hn : s.map.lookup q = none) :
    mapProbeOwner q s = (s, plain .notFound) := by
  simp [mapProbeOwner, hq, hn]

theorem mapProbeOwner_of_queue_ne_nil (hq : s.map.queue ≠ []) (q : Pair) :
    mapProbeOwner q s = (s, plain .updatesPending) := if_neg hq

/-- MAP_PROBE of a pair in its two bytes. -/
theorem exec_mapProbe_pair (hs : s.ready) {c b : Nat} (hc : c ≤ 15) (hb : b ≤ 63) :
    exec (.mapProbe [BitVec.ofNat 8 c, BitVec.ofNat 8 b]) s =
      .next ((mapProbeOwner ⟨c, b⟩ s).1.answer (mapProbeOwner ⟨c, b⟩ s).2) :=
  request_withParams_some hs (probeParams_bytes hc hb)

/-- Settles O16: with the queue empty the probe answers as the lookup does, and the lookup finds the matching entry. -/
theorem mapProbeFindsTheMatchingEntry : Obligations.MapProbeFindsTheMatchingEntry := by
  unfold Obligations.MapProbeFindsTheMatchingEntry
  intro s c b hs hc hb
  rw [exec_mapProbe_pair hs hc hb]
  refine ⟨fun waiting => ?updatesPending, fun empty => ⟨fun i hi unique => ?found, fun noMatch => ?notFound⟩⟩
  case updatesPending =>
    rw [mapProbeOwner_of_queue_ne_nil waiting]
    rfl
  case found =>
    have lookup_i : s.map.lookup ⟨c, b⟩ = some i :=
      LensMap.lookup_eq_some_of_unique (Entry.matchesPair_iff.mpr hi) fun j hj => unique j (Entry.matchesPair_iff.mp hj)
    rw [mapProbeOwner_of_lookup_eq_some empty lookup_i]
    rfl
  case notFound =>
    have lookup_none : s.map.lookup ⟨c, b⟩ = none :=
      LensMap.lookup_eq_none_iff.mpr fun i hi => noMatch i (Entry.matchesPair_iff.mp hi)
    rw [mapProbeOwner_of_lookup_eq_none empty lookup_none]
    rfl

end Sys2Proof.Machine
end

