-- ==== Sys2Proof/Proofs/AxesReset.lean ====
section
/-! Power-on reset at the stepped axes and at the zoom and tracking logic (03, 04): every axis has its reset record (R68), the
logic and the profile hold-off are at rest, and the tracking reference is 0 until the first load (R85). -/

namespace Sys2Proof.Machine

variable {h f a1 a0 : Bool} {s t : State}

/-! ### What power-on reset leaves in the records of the axes and of the tracking logic -/

/-- Power-on reset completes, whatever the lines and the state before. -/
theorem exec_powerOnReset_next (h f a1 a0 : Bool) (s : State) : ∃ t, exec (.powerOnReset h f a1 a0) s = .next t :=
  ⟨_, rfl⟩

theorem axis_of_powerOnReset (reset : exec (.powerOnReset h f a1 a0) s = .next t) (a : AxisId) :
    t.axis a = AxisRecord.reset a := by
  cases reset
  cases a <;> rfl

theorem holdOff_of_powerOnReset (reset : exec (.powerOnReset h f a1 a0) s = .next t) : t.holdOff = false := by
  cases reset
  rfl

theorem travel_of_powerOnReset (reset : exec (.powerOnReset h f a1 a0) s = .next t) :
    t.travel = ⟨false, none, none, false, 0⟩ := by
  cases reset
  rfl

/-- The sampled lines reach the resolver's accessory codes, never its record (R41). -/
theorem record_of_powerOnReset (reset : exec (.powerOnReset h f a1 a0) s = .next t) :
    t.resolver.record = ⟨false, LensFacts.zero, none, none⟩ := by
  cases reset
  rfl

/-- The profiles are the one part of the reset record that depends on the axis (R45). -/
theorem profile_of_powerOnReset (reset : exec (.powerOnReset h f a1 a0) s = .next t) (a : AxisId) :
    (t.axis a).profile = Profile.reset a := by
  rw [axis_of_powerOnReset reset]
  rfl

/-! ### The obligation (R68, R85) -/

/-- Settles O3: each axis has its reset record, and the logic, the hold-off and the resolver's record have their reset
values. -/
theorem resetLeavesTheAxesUnhomed : Obligations.ResetLeavesTheAxesUnhomed := by
  unfold Obligations.ResetLeavesTheAxesUnhomed
  intro h f a1 a0 s
  obtain ⟨t, reset⟩ := exec_powerOnReset_next h f a1 a0 s
  have travel := travel_of_powerOnReset reset
  refine ⟨t, reset, fun a => ?axis, profile_of_powerOnReset reset .zoom, profile_of_powerOnReset reset .focus,
    profile_of_powerOnReset reset .iris, holdOff_of_powerOnReset reset, ?refillTimer, ?bandWaited, ?crossing, ?owedMark,
    ?owed, ?reference⟩
  case axis =>
    rw [axis_of_powerOnReset reset]
    simp [AxisRecord.reset, Completion.empty]
  case reference =>
    rw [record_of_powerOnReset reset]
    rfl
  all_goals rw [travel]

end Sys2Proof.Machine
end

