-- ==== Sys2Proof/Proofs/StabilizerReset.lean ====
section
/-! Power-on reset at the Stabilizer (08): it stops, with everything in it cleared, and its record resolved mark agrees with
the Band Resolver's record (R148). -/

namespace Sys2Proof.Machine

theorem stab_of_powerOnReset {h f a1 a0 : Bool} {s t : State} (reset : exec (.powerOnReset h f a1 a0) s = .next t) :
    t.stab = Stabilizer.reset := by
  cases reset
  rfl

/-- Settles O4: the Stabilizer has its reset record, and the resolver's record is unresolved beside it. -/
theorem resetStopsTheStabilizer : Obligations.ResetStopsTheStabilizer := by
  unfold Obligations.ResetStopsTheStabilizer
  intro h f a1 a0 s
  obtain ⟨t, reset⟩ := exec_powerOnReset_next h f a1 a0 s
  refine ⟨t, reset, ?_⟩
  rw [stab_of_powerOnReset reset, record_of_powerOnReset reset]
  simp [Stabilizer.reset]

end Sys2Proof.Machine
end

