-- ==== Sys2Proof/Proofs/GyroSamples.lean ====
section
/-! Gyro samples at the Stabilizer (08): the rate that two bytes carry (R138), what a sample does in each state (R138 to
R142), and the command GYRO_SAMPLE, which tells the release of an entry to ACTIVE. -/

namespace Sys2Proof.Machine

/-! ### The rates of a sample (R138) -/

/-- Two's complement: the sign bit of 16 is the top bit of the high byte. -/
theorem int16_eq (b0 b1 : Byte) :
    int16 b0 b1 = (b0.toNat + 256 * b1.toNat : Nat) - (if b1.toNat < 128 then (0 : Int) else 65536) := by
  have low := b0.isLt
  have high := b1.isLt
  have fits : (BitVec.ofNat 16 (nat16 b0 b1)).toNat = b0.toNat + 256 * b1.toNat :=
    Nat.mod_eq_of_lt (by unfold nat16; omega)
  unfold int16
  rw [BitVec.toInt_eq_toNat_cond, fits]
  split <;> split <;> omega

section
variable {t : Stabilizer} {yaw pitch : Int}

/-! ### Entries by the record (R142, R143) -/

theorem Stabilizer.enterCentering_eq (t : Stabilizer) :
    t.enterCentering = { t with state := .centering, yaw := t.yaw.atCentering, pitch := t.pitch.atCentering } := rfl

theorem Stabilizer.enterByRecord_of_resolved (h : t.resolved = true) : t.enterByRecord = t.enterCentering :=
  if_pos h

theorem Stabilizer.enterByRecord_of_unresolved (h : t.resolved = false) :
    t.enterByRecord = { t with state := .held, yaw := t.yaw.quieted, pitch := t.pitch.quieted } :=
  if_neg (by simp [h])

/-! ### A sample by state (R138) -/

section
/-! `v` is the Stabilizer that the sample finds, and `t` is `v` with its silence timer restarted. -/

variable {v : Stabilizer} (ht : t = { v with silenceTimer := true })
include ht

theorem Stabilizer.state_of_restarted : v.state = t.state := by
  rw [ht]

theorem Stabilizer.sample_of_off (off : t.state = .off) : v.sample yaw pitch = (v, false) := by
  simp only [Stabilizer.sample, Stabilizer.state_of_restarted ht, off]

theorem Stabilizer.sample_of_held (held : t.state = .held) : v.sample yaw pitch = (t, false) := by
  rw [Stabilizer.sample, ← ht, Stabilizer.state_of_restarted ht, held]

theorem Stabilizer.sample_of_fault (fault : t.state = .fault) : v.sample yaw pitch = (t.enterByRecord, false) := by
  rw [Stabilizer.sample, ← ht, Stabilizer.state_of_restarted ht, fault]

theorem Stabilizer.sample_of_centering (centering : t.state = .centering) : v.sample yaw pitch = t.centre := by
  rw [Stabilizer.sample, ← ht, Stabilizer.state_of_restarted ht, centering]

theorem Stabilizer.sample_of_active (active : t.state = .active) :
    v.sample yaw pitch = (t.steady yaw pitch, false) := by
  rw [Stabilizer.sample, ← ht, Stabilizer.state_of_restarted ht, active]

theorem Stabilizer.sample_of_panning (panning : t.state = .panning) :
    v.sample yaw pitch = (t.steady yaw pitch, false) := by
  rw [Stabilizer.sample, ← ht, Stabilizer.state_of_restarted ht, panning]

end

/-! ### Centring (R142) -/

/-- Both axes stand at 0 after their step: ACTIVE is entered. -/
theorem Stabilizer.centre_of_centred (hy : towardCentre t.yaw.position = 0) (hp : towardCentre t.pitch.position = 0) :
    t.centre = ({ t with
      state := .active, yaw := { t.yaw with position := 0 }, pitch := { t.pitch with position := 0 } }, true) := by
  simp only [Stabilizer.centre, Stabilizer.onBoth, hy, hp, and_self, if_true]

/-- An axis is still off the centre after its step: CENTERING goes on. -/
theorem Stabilizer.centre_of_not_centred {y p : Int} (hy : towardCentre t.yaw.position = y)
    (hp : towardCentre t.pitch.position = p) (off : y ≠ 0 ∨ p ≠ 0) :
    t.centre = ({ t with yaw := { t.yaw with position := y }, pitch := { t.pitch with position := p } }, false) := by
  have notBoth : ¬(y = 0 ∧ p = 0) := not_and_or.mpr off
  simp only [Stabilizer.centre, Stabilizer.onBoth, hy, hp, if_neg notBoth]

/-! ### Steadying and pans (R139 to R141) -/

/-- R141: a pan ends when every panning axis has been quiet for fifty samples. -/
theorem Stabilizer.panOver_iff : t.panOver = true ↔
    (t.yaw.panning = true → t.yaw.quiet = 50) ∧ (t.pitch.panning = true → t.pitch.quiet = 50) := by
  simp only [Stabilizer.panOver, Bool.and_eq_true, Bool.or_eq_true, Bool.not_eq_true', decide_eq_true_eq,
    imp_iff_not_or, Bool.not_eq_true]
  rfl

end

section
/-! `u` is the Stabilizer `t` with a sample taken on both axes, before any change of its state. -/

variable {t u : Stabilizer} {yaw pitch : Int} {y p : ShiftAxis} {pastY pastP : Bool}
  (hy : t.yaw.sampled t.panThreshold t.gain yaw y pastY) (hp : t.pitch.sampled t.panThreshold t.gain pitch p pastP)
  (hu : u = { t with yaw := y, pitch := p, limitMark := t.limitMark || (t.exposureOpen && (pastY || pastP)) })
include hy hp hu

/-- Once the sample is taken on both axes, the state alone decides what follows. -/
theorem Stabilizer.steady_of_sampled : t.steady yaw pitch =
    if t.state = .active then
      if u.yaw.panning || u.pitch.panning then { u.leaveActive with state := .panning } else u
    else if u.panOver then u.enterCentering else u := by
  unfold Stabilizer.steady
  rw [ShiftAxis.sample_of_sampled hy, ShiftAxis.sample_of_sampled hp, hu]

theorem Stabilizer.steady_active_of_no_pan (active : t.state = .active) (noYaw : y.panning = false)
    (noPitch : p.panning = false) : t.steady yaw pitch = u := by
  rw [Stabilizer.steady_of_sampled hy hp hu, if_pos active, if_neg (by simp [hu, noYaw, noPitch])]

theorem Stabilizer.steady_active_of_pan (active : t.state = .active) (pan : y.panning = true ∨ p.panning = true) :
    t.steady yaw pitch = { u with state := .panning, leftActive := u.leftActive || u.exposureOpen } := by
  have u_active : u.state = .active := by rw [hu]; exact active
  rw [Stabilizer.steady_of_sampled hy hp hu, if_pos active, if_pos (by simpa [hu] using pan),
    Stabilizer.leaveActive_eq]
  simp [u_active]

theorem Stabilizer.steady_panning_of_not_over (panning : t.state = .panning)
    (lasts : (y.panning = true ∧ y.quiet ≠ 50) ∨ (p.panning = true ∧ p.quiet ≠ 50)) : t.steady yaw pitch = u := by
  have notOver : ¬ u.panOver = true := by
    rw [Stabilizer.panOver_iff, hu]
    tauto
  rw [Stabilizer.steady_of_sampled hy hp hu, if_neg (by simp [panning]), if_neg notOver]

theorem Stabilizer.steady_panning_of_over (panning : t.state = .panning) (overY : y.panning = true → y.quiet = 50)
    (overP : p.panning = true → p.quiet = 50) :
    t.steady yaw pitch = { u with state := .centering, yaw := y.atCentering, pitch := p.atCentering } := by
  have allQuiet : u.panOver = true := by
    rw [Stabilizer.panOver_iff, hu]
    exact ⟨overY, overP⟩
  rw [Stabilizer.steady_of_sampled hy hp hu, if_neg (by simp [panning]), if_pos allQuiet, Stabilizer.enterCentering_eq, hu]

end

/-! ### The command (R138, R142) -/

section
variable {y0 y1 p0 p1 : Byte} {s : State} {u : Stabilizer}

theorem exec_gyroSample_of_sample (h : s.stab.sample (int16 y0 y1) (int16 p0 p1) = (u, false)) :
    exec (.gyroSample y0 y1 p0 p1) s = .next { s with stab := u } := by
  show execGyroSample y0 y1 p0 p1 s = _
  rw [execGyroSample, h]
  rfl

/-- An entry to ACTIVE is told to the release. -/
theorem exec_gyroSample_of_sample_enters (h : s.stab.sample (int16 y0 y1) (int16 p0 p1) = (u, true)) :
    exec (.gyroSample y0 y1 p0 p1) s =
      .next { s with stab := u, handoffs := { s.handoffs with steady := s.handoffs.steady + 1 } } := by
  show execGyroSample y0 y1 p0 p1 s = _
  rw [execGyroSample, h]
  rfl

end

/-! ### The obligation (R138 to R142) -/

/-- Settles O51: the command acts as the sample does in the state it finds. -/
theorem gyroSampleMovesTheLens : Obligations.GyroSampleMovesTheLens := by
  unfold Obligations.GyroSampleMovesTheLens
  refine ⟨int16_eq, fun _ _ => rfl, ?_⟩
  intro y0 y1 p0 p1 s t ht
  refine ⟨fun off => ?off, fun held => ?held, fun fault resolved => ?faultResolved,
    fun fault unresolved => ?faultUnresolved, fun y p centering hy hp => ⟨?centred, fun notCentred => ?centering⟩,
    fun y p pastY pastP u hy hp hu => ⟨fun active noYaw noPitch => ?active, fun active pan => ?panBegins,
      fun panning lasts => ?panLasts, fun panning overY overP => ?panEnds⟩⟩
  case off => exact exec_gyroSample_of_sample (Stabilizer.sample_of_off ht off)
  case held => exact exec_gyroSample_of_sample (Stabilizer.sample_of_held ht held)
  case faultResolved =>
    apply exec_gyroSample_of_sample
    rw [Stabilizer.sample_of_fault ht fault, Stabilizer.enterByRecord_of_resolved resolved, Stabilizer.enterCentering_eq]
  case faultUnresolved =>
    apply exec_gyroSample_of_sample
    rw [Stabilizer.sample_of_fault ht fault, Stabilizer.enterByRecord_of_unresolved unresolved]
  case centred =>
    rintro ⟨rfl, rfl⟩
    apply exec_gyroSample_of_sample_enters
    rw [Stabilizer.sample_of_centering ht centering,
      Stabilizer.centre_of_centred (towardCentre_eq hy) (towardCentre_eq hp)]
  case centering =>
    apply exec_gyroSample_of_sample
    rw [Stabilizer.sample_of_centering ht centering,
      Stabilizer.centre_of_not_centred (towardCentre_eq hy) (towardCentre_eq hp) notCentred]
  case active =>
    apply exec_gyroSample_of_sample
    rw [Stabilizer.sample_of_active ht active, Stabilizer.steady_active_of_no_pan hy hp hu active noYaw noPitch]
  case panBegins =>
    apply exec_gyroSample_of_sample
    rw [Stabilizer.sample_of_active ht active, Stabilizer.steady_active_of_pan hy hp hu active pan]
  case panLasts =>
    apply exec_gyroSample_of_sample
    rw [Stabilizer.sample_of_panning ht panning, Stabilizer.steady_panning_of_not_over hy hp hu panning lasts]
  case panEnds =>
    apply exec_gyroSample_of_sample
    rw [Stabilizer.sample_of_panning ht panning, Stabilizer.steady_panning_of_over hy hp hu panning overY overP]

end Sys2Proof.Machine
end

