-- ==== Sys2Proof/Proofs/StepLaws.lean ====
section
/-! What a step does as a whole: it runs the front command, every command completes, and each keeps the laws of the map, of the
release and of the record. -/

namespace Sys2Proof.Machine

variable {s t : State} {c : Instr}

/-- A request with `inStandby` false reaches its owner outside standby alone (R175, step 4), so the owner may count on that. -/
theorem request_keeps_awake {owner : State → State × Answer} {P : State → Prop} (link : ∀ u l, P u → P (u.setLink l))
    (hs : P s) (ho : s.standby = false → P (owner s).1) (h : request false owner s = .next t) : P t := by
  unfold request at h
  split at h
  · split at h <;> cases h
    · exact link _ _ hs
    · exact link _ _ (ho (by simp_all))
  · cases h
    obtain ⟨l, hl⟩ := dropFrame_eq s
    rw [hl]
    exact link _ _ hs

/-! ### The step -/

/-- Settles O1. -/
theorem stepRunsTheFrontCommand : Obligations.StepRunsTheFrontCommand := by
  unfold Obligations.StepRunsTheFrontCommand
  refine ⟨fun c rest s => rfl, fun s idle => ?_⟩
  simp only [step, idle]

/-- A property of states that says nothing of the queue of commands is kept by a step if every command keeps it. -/
theorem step_keeps {P : State → Prop} (queue : ∀ u q, P u → P (u.setPending q))
    (command : ∀ c u v, P u → exec c u = .next v → P v) (hs : P s) (h : step s = .next t) : P t := by
  unfold step at h
  split at h
  · cases h
    exact hs
  · exact command _ _ _ (queue _ _ hs) h

end Sys2Proof.Machine
end

