-- ==== Sys2Proof/Proofs/StepTable.lean ====
section
/-! The map and the queue of commands across one command: nine commands concern the map, every other leaves it as it is, and
none touches the queue. -/

namespace Sys2Proof.Machine

variable {s t : State} {c : Instr}

/-! ### Every command completes (log 2) -/

/-- The requests complete by `request_next`; an event asks at most one guard before its effect, but for five that ask several. -/
theorem exec_next (c : Instr) (s : State) : ∃ t, exec c s = .next t := by
  cases c
  case powerOnReset | emptyTransaction | profileHoldOffExpiry | frameStartPulse | gyroSample | gyroTransferDiscarded =>
    exact ⟨_, rfl⟩
  case requestFrameRejected | readTransaction | referenceTargetReached | timeBaseExhausted | switchDebounceExpiry =>
    simp only [exec, execRequestFrameRejected, execReadTransaction, execReferenceTargetReached, execTimeBaseExhausted,
      execSwitchDebounceExpiry]
    repeat' split
    all_goals exact ⟨_, rfl⟩
  case requestFrameDropped | queueDrain | updateReport | accessorySample | refillTimerExpiry | pinReleaseNotice |
      stepIntervalExpiry | wakeTimerExpiry | settleTimerExpiry | holdReleaseExpiry | trackingLoad | contrastDeadlineExpiry |
      sensorPhaseEnd | sceneCompute | silenceTimerExpiry | stabLoadNotice | stabUnresolvedNotice | switchLineChange |
      steadyWaitExpiry | steadyNotice | exposureTimerExpiry | stallTimerExpiry | ownerPlacesAnswer =>
    simp only [exec, execRequestFrameDropped, execQueueDrain, execUpdateReport, execAccessorySample, execRefillTimerExpiry,
      execPinReleaseNotice, execStepIntervalExpiry, execWakeTimerExpiry, execSettleTimerExpiry, execHoldReleaseExpiry,
      execTrackingLoad, execContrastDeadlineExpiry, execSensorPhaseEnd, execSceneCompute, execSilenceTimerExpiry,
      execStabLoadNotice, execStabUnresolvedNotice, execSwitchLineChange, execSteadyWaitExpiry, execSteadyNotice,
      execExposureTimerExpiry, execStallTimerExpiry, execOwnerPlacesAnswer]
    split <;> exact ⟨_, rfl⟩
  all_goals exact request_next

/-! ### The part of the state that concerns the map -/

/-- What only the map's own commands and power-on reset change: the map and the queue of commands. -/
def State.table (s : State) : LensMap × List Instr := (s.map, s.pending)

theorem State.table_of_aside (h : t.aside = s.aside) : t.table = s.table := by
  rw [State.table, State.map_of_aside h, State.pending_of_aside h, State.table]

theorem State.map_of_table (h : t.table = s.table) : t.map = s.map := congrArg Prod.fst h

theorem State.pending_of_table (h : t.table = s.table) : t.pending = s.pending := congrArg Prod.snd h

@[simp] theorem State.setLink_table (s : State) (l : LinkState) : (s.setLink l).table = s.table := rfl

@[simp] theorem dropFrame_table (s : State) : (dropFrame s).table = s.table := by
  obtain ⟨l, hl⟩ := dropFrame_eq s
  rw [hl, State.setLink_table]

theorem request_table {α : Type} {b : Bool} {read : Bytes → Option α} {p : Bytes} {owner : α → State → State × Answer}
    (ho : ∀ x, (owner x s).1.table = s.table) (h : request b (withParams read p owner) s = .next t) : t.table = s.table :=
  request_keeps (P := fun u => u.table = s.table) (fun _ _ hu => hu) rfl
    (withParams_keeps (P := fun u => u.table = s.table) rfl ho) h

theorem request_aside {α : Type} {b : Bool} {read : Bytes → Option α} {p : Bytes} {owner : α → State → State × Answer}
    (ho : ∀ x, (owner x s).1.aside = s.aside) (h : request b (withParams read p owner) s = .next t) : t.table = s.table :=
  request_table (fun x => State.table_of_aside (ho x)) h

/-! ### Owners that lie aside of the map -/

section
variable (s)

theorem setModeOwner_aside (m) : (setModeOwner m s).1.aside = s.aside := by
  unfold setModeOwner
  repeat' split
  all_goals simp

theorem axisHomeOwner_aside (b a) : (axisHomeOwner b a s).1.aside = s.aside := by
  unfold axisHomeOwner
  split <;> simp

theorem axisMoveOwner_aside (x) : (axisMoveOwner x s).1.aside = s.aside := by
  unfold axisMoveOwner
  split <;> simp

theorem axisStopOwner_aside (a) : (axisStopOwner a s).1.aside = s.aside := by
  simp [axisStopOwner]

theorem axisCollectOwner_aside (a) : (axisCollectOwner a s).1.aside = s.aside := by
  simp only [axisCollectOwner]
  split <;> simp

theorem sweepStartOwner_aside (p) : (sweepStartOwner p s).1.aside = s.aside := by
  simp only [sweepStartOwner]
  split <;> simp

theorem sweepContrastOwner_aside (n) : (sweepContrastOwner n s).1.aside = s.aside := by
  simp only [sweepContrastOwner]
  split <;> simp

theorem meterSetupOwner_aside (u) : (meterSetupOwner u s).1.aside = s.aside := by
  unfold meterSetupOwner
  split <;> simp

theorem meterStartOwner_aside (u) : (meterStartOwner u s).1.aside = s.aside := by
  unfold meterStartOwner
  repeat' split
  all_goals simp

theorem meterReferenceOwner_aside (b) : (meterReferenceOwner b s).1.aside = s.aside := by
  unfold meterReferenceOwner
  split <;> simp

theorem programWriteOwner_aside (p) : (programWriteOwner p s).1.aside = s.aside := by
  unfold programWriteOwner
  split <;> simp

theorem shootOwner_aside (u) : (shootOwner u s).1.aside = s.aside := by
  simp only [shootOwner]
  split <;> simp

theorem slotDevelopedOwner_aside (x) : (slotDevelopedOwner x s).1.aside = s.aside := by
  simp only [slotDevelopedOwner]
  repeat' split
  all_goals simp

theorem slotStoredOwner_aside (i) : (slotStoredOwner i s).1.aside = s.aside := by
  simp only [slotStoredOwner]
  split <;> simp

theorem slotDiscardOwner_aside (i) : (slotDiscardOwner i s).1.aside = s.aside := by
  unfold slotDiscardOwner
  split <;> simp

theorem storeCapacityOwner_aside (n) : (storeCapacityOwner n s).1.aside = s.aside := by
  unfold storeCapacityOwner
  split <;> simp

theorem wakeOwner_aside (u) : (wakeOwner u s).1.aside = s.aside := by
  unfold wakeOwner
  split <;> simp

theorem zoneMeasured_aside (w z r) : (s.zoneMeasured w z r).aside = s.aside := by
  simp only [State.zoneMeasured]
  repeat' split
  all_goals simp [State.postScene_eq]

end

/-! ### Which commands concern the map -/

/-- The commands that concern the map or reset the part. -/
def concernsMap : Instr → Bool
  | .mapWrite _ | .mapInstall _ | .mapRetire _ | .mapPurge _ | .mapLock _ | .mapStatus _ | .queueDrain | .standby _
  | .powerOnReset _ _ _ _ => true
  | _ => false

theorem exec_table_of_not_concernsMap (hc : concernsMap c = false) (h : exec c s = .next t) : t.table = s.table := by
  cases c
  case setMode => exact request_aside (setModeOwner_aside s) h
  case axisHome => exact request_aside (axisHomeOwner_aside s _) h
  case axisMove => exact request_aside (axisMoveOwner_aside s) h
  case axisStop => exact request_aside (axisStopOwner_aside s) h
  case axisCollect => exact request_aside (axisCollectOwner_aside s) h
  case axisProfile =>
    refine request_table (fun x => ?_) h
    unfold axisProfileOwner
    split
    · exact (State.table_of_aside (s.setAxis_aside _ _) :)
    · rfl
  case sweepStart => exact request_aside (sweepStartOwner_aside s) h
  case sweepContrast => exact request_aside (sweepContrastOwner_aside s) h
  case meterSetup => exact request_aside (meterSetupOwner_aside s) h
  case meterStart => exact request_aside (meterStartOwner_aside s) h
  case meterReference => exact request_aside (meterReferenceOwner_aside s) h
  case programWrite => exact request_aside (programWriteOwner_aside s) h
  case shoot => exact request_aside (shootOwner_aside s) h
  case slotDeveloped => exact request_aside (slotDevelopedOwner_aside s) h
  case slotStored => exact request_aside (slotStoredOwner_aside s) h
  case slotDiscard => exact request_aside (slotDiscardOwner_aside s) h
  case storeCapacity => exact request_aside (storeCapacityOwner_aside s) h
  case wake => exact request_aside (wakeOwner_aside s) h
  case clear => exact request_aside (fun _ => by simp [clearOwner]) h
  case mapRead =>
    refine request_table (fun x => ?_) h
    unfold mapReadOwner
    split <;> rfl
  case mapProbe =>
    refine request_table (fun x => ?_) h
    unfold mapProbeOwner
    repeat' split
    all_goals rfl
  case readLens | axisRead | sweepPreset | sweepRead | meterEnable | meterStop | meterRead | meterClear | exposureSetup | aeLock |
      aeUnlock | exposureRead | stabSetup | stabRead | slotRead | releaseSetup | sizeTableWrite | releaseRead | status =>
    exact request_table (fun _ => rfl) h
  case emptyTransaction | profileHoldOffExpiry | frameStartPulse | gyroTransferDiscarded =>
    cases h
    rfl
  case requestFrameRejected | requestFrameDropped =>
    simp only [exec, execRequestFrameRejected, execRequestFrameDropped] at h
    repeat' split at h
    all_goals
      cases h
      simp only [State.setLink_table, dropFrame_table]
  case readTransaction =>
    simp only [exec, execReadTransaction] at h
    repeat' split at h
    all_goals
      cases h
      rfl
  case gyroSample =>
    cases h
    apply State.table_of_aside
    split <;> simp [State.postSteady_eq]
  case updateReport | accessorySample | refillTimerExpiry | pinReleaseNotice |
      stepIntervalExpiry | wakeTimerExpiry | settleTimerExpiry | holdReleaseExpiry | trackingLoad | contrastDeadlineExpiry |
      referenceTargetReached | timeBaseExhausted | switchDebounceExpiry |
      sensorPhaseEnd | sceneCompute | silenceTimerExpiry | stabLoadNotice | stabUnresolvedNotice | switchLineChange |
      steadyWaitExpiry | steadyNotice | exposureTimerExpiry | stallTimerExpiry  =>
    simp only [exec, execUpdateReport, execAccessorySample, execRefillTimerExpiry,
      execPinReleaseNotice, execStepIntervalExpiry, execWakeTimerExpiry, execSettleTimerExpiry, execHoldReleaseExpiry,
      execReferenceTargetReached, execTimeBaseExhausted, execSwitchDebounceExpiry,
      execTrackingLoad, execContrastDeadlineExpiry, execSensorPhaseEnd, execSceneCompute, execSilenceTimerExpiry,
      execStabLoadNotice, execStabUnresolvedNotice, execSwitchLineChange, execSteadyWaitExpiry, execSteadyNotice,
      execExposureTimerExpiry, execStallTimerExpiry] at h
    apply State.table_of_aside
    repeat' split at h
    all_goals
      cases h
      simp [zoneMeasured_aside]
  case ownerPlacesAnswer =>
    simp only [exec, execOwnerPlacesAnswer] at h
    split at h <;> cases h
    · exact (State.table_of_aside s.finishEntry_aside :)
    · rfl
    · rfl
  all_goals cases hc

/-! ### The map's own commands -/

/-- The queue of commands beside the map's own commands, whose owners leave it. -/
theorem takeUpdate_pending (u : Update) (s : State) : (takeUpdate u s).1.pending = s.pending := by
  unfold takeUpdate
  repeat' split
  all_goals rfl

theorem drain_pending (n : Nat) : ∀ s : State, (s.drain n).pending = s.pending := by
  induction n with
  | zero => exact fun _ => rfl
  | succ n ih =>
    intro s
    unfold State.drain
    split
    · rfl
    · rw [ih, State.pending_of_aside (State.examine_aside _ _), State.setMap_pending]

theorem drained_pending (s : State) : s.drained.pending = s.pending := by
  rw [State.drained, drain_pending, State.pending_of_aside s.takeReports_aside]

theorem enterStandby_pending (s : State) (c : StandbyScope) : (s.enterStandby c).pending = s.pending := by
  simp [State.enterStandby, State.pending_of_aside (State.standbyStab_aside _), State.pending_of_aside s.takeScenes_aside]

/-- A request keeps what its owner keeps of the queue of commands. -/
theorem request_pending {α : Type} {b : Bool} {read : Bytes → Option α} {p : Bytes} {owner : α → State → State × Answer}
    (ho : ∀ x, (owner x s).1.pending = s.pending) (h : request b (withParams read p owner) s = .next t) :
    t.pending = s.pending :=
  request_keeps (P := fun u => u.pending = s.pending) (fun _ _ hu => hu) rfl
    (withParams_keeps (P := fun u => u.pending = s.pending) rfl ho) h

/-- No command touches the queue of commands. -/
theorem exec_pending (h : exec c s = .next t) : t.pending = s.pending := by
  cases hc : concernsMap c with
  | false => exact State.pending_of_table (exec_table_of_not_concernsMap hc h)
  | true =>
    cases c
    case mapWrite | mapInstall | mapRetire | mapPurge => exact request_pending (fun _ => takeUpdate_pending _ _) h
    case mapLock | mapStatus => exact request_pending (fun _ => rfl) h
    case queueDrain =>
      simp only [exec, execQueueDrain] at h
      split at h <;> cases h
      · rfl
      · rw [State.pending_of_aside (State.settleZero_aside _), drained_pending, State.setHandoffs_pending]
    case standby =>
      refine request_pending (fun scope => ?_) h
      unfold standbyOwner
      split
      · exact enterStandby_pending s scope
      · rfl
    case powerOnReset =>
      cases h
      rfl
    all_goals cases hc

/-- Settles O2. -/
theorem everyCommandCompletes : Obligations.EveryCommandCompletes := by
  unfold Obligations.EveryCommandCompletes
  intro c s
  obtain ⟨t, h⟩ := exec_next c s
  exact ⟨t, h, exec_pending h⟩

/-! ### The map's laws (R4, R5, R17) -/

/-- A request keeps the map's laws if its owner does. -/
theorem request_mapLaw {α : Type} {b : Bool} {read : Bytes → Option α} {p : Bytes} {owner : α → State → State × Answer}
    (hs : s.map.Law) (ho : ∀ x, (owner x s).1.map.Law) (h : request b (withParams read p owner) s = .next t) : t.map.Law :=
  request_keeps (P := fun u => u.map.Law) (fun _ _ hu => hu) hs (withParams_keeps (P := fun u => u.map.Law) hs ho) h

/-- MAP_LOCK brings the cursor to 31 where the new count has passed it, so it stays at or above the count (R15). -/
theorem mapLockOwner_mapLaw (count : Fin 17) (hs : s.map.Law) : (mapLockOwner count s).1.map.Law := by
  obtain ⟨noDuplicates, -, -, queue⟩ := hs
  refine ⟨noDuplicates, Nat.le_of_lt_succ count.isLt, ?_, queue⟩
  show count.val ≤ (if s.map.cursor.val < count.val then (31 : Fin 32) else s.map.cursor).val
  split
  · exact (Nat.le_of_lt_succ count.isLt).trans (by decide)
  · omega

theorem mapLaw_reset : LensMap.reset.Law := by
  refine ⟨fun i j _ => ?_, by decide, by decide, by decide⟩
  have zero (k : Fin 32) : LensMap.reset.entries[k] = Entry.zero := by simp [LensMap.reset]
  rw [zero i, zero j]
  rfl

/-- Every command keeps the map's laws: those that concern the map by its own operations, the others by leaving it alone. -/
theorem exec_mapLaw (hs : s.map.Law) (h : exec c s = .next t) : t.map.Law := by
  cases hc : concernsMap c with
  | false =>
    rw [State.map_of_table (exec_table_of_not_concernsMap hc h)]
    exact hs
  | true =>
    cases c
    case mapWrite | mapInstall | mapRetire | mapPurge => exact request_mapLaw hs (fun _ => takeUpdate_mapLaw _ _ hs) h
    case mapLock => exact request_mapLaw hs (fun count => mapLockOwner_mapLaw count hs) h
    case mapStatus => exact request_mapLaw hs (fun _ => hs) h
    case queueDrain =>
      simp only [exec, execQueueDrain] at h
      split at h <;> cases h
      · exact hs
      · rw [State.map_of_aside (State.settleZero_aside _)]
        exact State.drained_mapLaw _ hs
    case standby =>
      refine request_mapLaw hs (fun scope => ?_) h
      unfold standbyOwner
      split
      · rw [State.enterStandby_map]
        exact LensMap.enterStandby_law _ _ hs
      · exact hs
    case powerOnReset =>
      cases h
      exact mapLaw_reset
    all_goals cases hc

/-- Settles O23. -/
theorem stepKeepsTheMapLaw : Obligations.StepKeepsTheMapLaw := by
  unfold Obligations.StepKeepsTheMapLaw
  intro s t hs h
  exact step_keeps (P := fun u => u.map.Law) (fun _ _ hu => hu) (fun _ _ _ hu => exec_mapLaw hu) hs h

end Sys2Proof.Machine
end

