-- ==== Sys2Proof/Proofs/ReleaseLaw.lean ====
section
/-! Every step keeps the release's laws (R151, R158, R164): at most one slot is in the making, the exposure control names it, and
the store has space for what is held. -/

namespace Sys2Proof.Machine

variable {s t : State} {c : Instr}

/-! ### The slots and the store under their requests (R163 to R166) -/

/-- A picture developed to a size that fits takes the place of its reservation (R165). -/
theorem slotDevelopedOwner_releaseLaw (x : Fin 12 × Nat) (hs : s.release.Law) :
    (slotDevelopedOwner x s).1.release.Law := by
  simp only [slotDevelopedOwner]
  split
  · exact hs
  next exposed =>
    have exposed : (s.release.slots[x.1]).state = .exposed := Decidable.not_not.mp exposed
    split
    next fits =>
      refine Release.Law.setSlot_same hs x.1 _ (by rw [exposed]; rfl) ?_
      have held : (s.release.slots[x.1]).held = (s.release.slots[x.1]).reservation.getD 0 := by simp only [Slot.held, exposed]
      have heldLe := s.release.held_le x.1
      have sumLe : s.release.heldSum ≤ s.release.storeFree := hs.2.2
      simp only [Slot.held, Option.getD_some] at held heldLe ⊢
      omega
    · exact hs

/-- A stored picture gives back its slot and takes its size off the store (R165). -/
theorem storedSlot_releaseLaw (i : Fin 12) (developed : (s.release.slots[i]).state = .developed) (hs : s.release.Law) :
    ({ s.release.setSlot i Slot.cleared with
        storeFree := (s.release.setSlot i Slot.cleared).storeFree - (s.release.slots[i]).size.getD 0 } : Release).Law := by
  have cleared : (s.release.setSlot i Slot.cleared).Law :=
    Release.Law.setSlot_same hs i _ (by rw [developed]; rfl) (by have := hs.2.2; simp [Slot.held, Slot.cleared]; omega)
  obtain ⟨oneActive, armedActive, -⟩ := cleared
  refine ⟨oneActive, armedActive, ?_⟩
  have sum := s.release.heldSum_setSlot i Slot.cleared
  have held : (s.release.slots[i]).held = (s.release.slots[i]).size.getD 0 := by simp only [Slot.held, developed]
  have sumLe : s.release.heldSum ≤ s.release.storeFree := hs.2.2
  have none : Slot.cleared.held = 0 := rfl
  show (s.release.setSlot i Slot.cleared).heldSum ≤ s.release.storeFree - _
  omega

theorem slotStoredOwner_releaseLaw (i : Fin 12) (hs : s.release.Law) : (slotStoredOwner i s).1.release.Law := by
  simp only [slotStoredOwner]
  split
  · exact hs
  next developed =>
    exact State.settleZero_safe (State.slotFreed_safe (storedSlot_releaseLaw i (Decidable.not_not.mp developed) hs))

theorem slotReadOwner_releaseLaw (i : Fin 12) (hs : s.release.Law) : (slotReadOwner i s).1.release.Law :=
  Release.Law.setSlot_same hs i _ rfl (Nat.add_le_add_right hs.2.2 _)

theorem storeCapacityOwner_releaseLaw (n : Nat) (hs : s.release.Law) : (storeCapacityOwner n s).1.release.Law := by
  unfold storeCapacityOwner
  split
  · exact hs
  next enough => exact ⟨hs.1, hs.2.1, Nat.le_of_not_lt enough⟩

/-! ### The switch, the steady wait, shots that are due, and reset -/

theorem setDebounce_releaseLaw {r : Release} (line : SwitchLine) (b : Bool) (hr : r.Law) : (r.setDebounce line b).Law := by
  cases line <;> exact hr.same rfl rfl (.inl rfl)

theorem take_releaseLaw {r : Release} (line : SwitchLine) (b : Bool) (hr : r.Law) : (r.take line b).Law := by
  cases line <;> exact hr.same rfl rfl (.inl rfl)

theorem takeSteady_releaseLaw (hs : s.release.Law) : s.takeSteady.release.Law := by
  unfold State.takeSteady
  split
  · exact State.tryExposure_safe (hs.same rfl rfl (.inl rfl))
  · exact hs

theorem shotIfDue_releaseLaw (hs : s.release.Law) : s.shotIfDue.release.Law := by
  unfold State.shotIfDue
  split
  · exact State.armBurst_safe (hs.same rfl rfl (.inl rfl))
  · exact hs

theorem takeCode_release (s : State) (n : Nat) : (s.takeCode n).release = s.release := by
  simp only [State.takeCode]
  repeat' split
  · rfl
  · rfl
  · rfl
  · rfl
  · exact (State.release_of_others (State.resolve_others _ _) :)

theorem zoneMeasured_release (s : State) (w : Working) (z : Fin 8) (r : ZoneResult) :
    (s.zoneMeasured w z r).release = s.release := by
  simp only [State.zoneMeasured]
  repeat' split
  all_goals rfl

/-- After reset every slot is FREE, and nothing is held (R172). -/
theorem releaseLaw_reset : Release.reset.Law := by
  have free (i : Fin 12) : Release.reset.slots[i] = Slot.cleared := by simp [Release.reset]
  refine ⟨fun i j active => ?_, fun i armed => ?_, by decide⟩
  · rw [free i] at active
    cases active
  · cases armed

/-! ### Every command -/

/-- A request keeps the release's laws if its owner does. -/
theorem request_releaseLaw {α : Type} {b : Bool} {read : Bytes → Option α} {p : Bytes} {owner : α → State → State × Answer}
    (hs : s.release.Law) (ho : ∀ x, (owner x s).1.release.Law) (h : request b (withParams read p owner) s = .next t) :
    t.release.Law :=
  request_keeps (P := fun u => u.release.Law) (fun _ _ hu => hu) hs (withParams_keeps (P := fun u => u.release.Law) hs ho) h

/-- A request whose owner leaves the release alone keeps its laws. -/
theorem request_sameRelease {α : Type} {b : Bool} {read : Bytes → Option α} {p : Bytes} {owner : α → State → State × Answer}
    (hs : s.release.Law) (ho : ∀ x, (owner x s).1.release = s.release) (h : request b (withParams read p owner) s = .next t) :
    t.release.Law :=
  request_releaseLaw hs (fun x => (ho x).symm ▸ hs) h

theorem exec_releaseLaw (hs : s.release.Law) (h : exec c s = .next t) : t.release.Law := by
  cases c
  case slotDeveloped => exact request_releaseLaw hs (fun x => slotDevelopedOwner_releaseLaw x hs) h
  case slotStored => exact request_releaseLaw hs (fun i => slotStoredOwner_releaseLaw i hs) h
  case slotRead => exact request_releaseLaw hs (fun i => slotReadOwner_releaseLaw i hs) h
  case storeCapacity => exact request_releaseLaw hs (fun n => storeCapacityOwner_releaseLaw n hs) h
  case releaseSetup | sizeTableWrite | releaseRead => exact request_releaseLaw hs (fun _ => hs.same rfl rfl (.inl rfl)) h
  case slotDiscard =>
    refine request_releaseLaw hs (fun i => ?_) h
    unfold slotDiscardOwner
    split
    · exact hs
    · exact State.settleZero_safe (State.discard_safe i hs)
  case shoot =>
    refine request_releaseLaw hs (fun _ => ?_) h
    simp only [shootOwner]
    split <;> exact State.settleZero_safe (State.arm_safe _ _ hs)
  case setMode =>
    refine request_releaseLaw hs (fun m => ?_) h
    unfold setModeOwner
    repeat' split
    · exact hs
    · exact hs
    · exact State.settleZero_safe (State.resolve_safe _ hs)
  case axisHome =>
    refine request_releaseLaw hs (fun a => ?_) h
    unfold axisHomeOwner
    split
    · exact hs
    · exact State.settleZero_safe (State.beginHoming_safe _ _ hs)
  case axisMove =>
    refine request_releaseLaw hs (fun x => ?_) h
    unfold axisMoveOwner
    split
    · exact hs
    · exact State.settleZero_safe (State.hostMove_safe _ _ hs)
  case axisStop =>
    refine request_releaseLaw hs (fun a => ?_) h
    unfold axisStopOwner
    exact State.settleZero_safe (State.stopMove_safe a hs)
  case axisCollect =>
    refine request_sameRelease hs (fun a => ?_) h
    simp only [axisCollectOwner]
    split <;> simp
  case axisProfile =>
    refine request_sameRelease hs (fun x => ?_) h
    unfold axisProfileOwner
    split <;> simp
  case sweepStart =>
    refine request_releaseLaw hs (fun p => ?_) h
    simp only [sweepStartOwner]
    split
    · exact hs
    · exact State.settleZero_safe (State.beginSweep_safe _ _ (State.takeHandoffs_safe hs))
  case sweepContrast =>
    refine request_releaseLaw hs (fun n => ?_) h
    simp only [sweepContrastOwner]
    split
    · exact State.settleZero_safe (State.judge_safe n hs)
    · exact hs
  case clear =>
    refine request_releaseLaw hs (fun _ => ?_) h
    simp only [clearOwner]
    exact State.settleZero_safe (State.clearParts_safe _ _ _ _)
  case standby =>
    refine request_releaseLaw hs (fun scope => ?_) h
    unfold standbyOwner
    split
    · exact State.enterStandby_safe scope hs
    · exact hs
  case wake =>
    refine request_releaseLaw hs (fun _ => ?_) h
    unfold wakeOwner
    split
    · exact State.wakeUp_safe hs
    · exact hs
  case mapWrite | mapInstall | mapRetire | mapPurge =>
    refine request_sameRelease hs (fun _ => ?_) h
    unfold takeUpdate
    repeat' split
    all_goals rfl
  case mapRead | mapProbe | meterSetup | meterStart | meterReference | programWrite =>
    refine request_sameRelease hs (fun _ => ?_) h
    simp only [mapReadOwner, mapProbeOwner, meterSetupOwner, meterStartOwner, meterReferenceOwner, programWriteOwner]
    repeat' split
    all_goals rfl
  case mapLock | mapStatus | readLens | axisRead | sweepPreset | sweepRead | meterEnable | meterStop | meterRead | meterClear |
      exposureSetup | aeLock | aeUnlock | exposureRead | stabSetup | stabRead | status =>
    exact request_sameRelease hs (fun _ => rfl) h
  case powerOnReset =>
    cases h
    exact releaseLaw_reset.same rfl rfl (.inl rfl)
  case emptyTransaction | profileHoldOffExpiry | frameStartPulse | gyroTransferDiscarded =>
    cases h
    exact hs
  case gyroSample =>
    cases h
    split <;> exact hs
  case requestFrameRejected | requestFrameDropped =>
    simp only [exec, execRequestFrameRejected, execRequestFrameDropped] at h
    obtain ⟨l, dropped⟩ := dropFrame_eq s
    repeat' split at h
    all_goals
      cases h
      simpa only [dropped, State.setLink_release] using hs
  case readTransaction | silenceTimerExpiry | stabLoadNotice | stabUnresolvedNotice | holdReleaseExpiry =>
    simp only [exec, execReadTransaction, execSilenceTimerExpiry, execStabLoadNotice, execStabUnresolvedNotice,
      execHoldReleaseExpiry] at h
    repeat' split at h
    all_goals
      cases h
      simpa using hs
  case referenceTargetReached | timeBaseExhausted | sensorPhaseEnd =>
    simp only [exec, execReferenceTargetReached, execTimeBaseExhausted, execSensorPhaseEnd] at h
    repeat' split at h
    all_goals
      cases h
      simpa only [zoneMeasured_release, State.setMeter_release] using hs
  case queueDrain =>
    simp only [exec, execQueueDrain] at h
    split at h <;> cases h
    · exact hs
    · exact State.settleZero_safe (State.drained_safe hs)
  case updateReport =>
    simp only [exec, execUpdateReport] at h
    split at h <;> cases h
    · exact hs
    · exact State.settleZero_safe (State.examine_safe _ hs)
  case accessorySample =>
    simp only [exec, execAccessorySample] at h
    split at h <;> cases h
    · refine State.settleZero_safe ?_
      rw [takeCode_release]
      exact hs
    · exact hs
  case refillTimerExpiry =>
    simp only [exec, execRefillTimerExpiry] at h
    split at h <;> cases h
    · exact State.settleZero_safe (State.zoomEndWait_safe _ hs)
    · exact hs
  case pinReleaseNotice =>
    simp only [exec, execPinReleaseNotice] at h
    split at h <;> cases h
    · exact hs
    · exact State.settleZero_safe (shotIfDue_releaseLaw hs)
  case stepIntervalExpiry =>
    simp only [exec, execStepIntervalExpiry] at h
    split at h <;> cases h
    · exact hs
    · exact State.settleZero_safe (State.decideAxis_safe _ _ (by simpa using hs))
  case wakeTimerExpiry =>
    simp only [exec, execWakeTimerExpiry] at h
    split at h <;> cases h
    · exact hs
    · exact State.settleZero_safe (State.decideAxis_safe _ _ (by simpa using hs))
  case settleTimerExpiry =>
    simp only [exec, execSettleTimerExpiry] at h
    split at h <;> cases h
    · exact State.settleZero_safe (State.settleExpired_safe _ hs)
    · exact hs
  case trackingLoad =>
    simp only [exec, execTrackingLoad] at h
    split at h <;> cases h
    · exact hs
    · exact State.settleZero_safe (State.track_safe _ hs)
  case contrastDeadlineExpiry =>
    simp only [exec, execContrastDeadlineExpiry] at h
    split at h <;> cases h
    · exact State.settleZero_safe (State.endSweep_safe _ hs)
    · exact hs
  case sceneCompute =>
    simp only [exec, execSceneCompute] at h
    split at h <;> cases h
    · exact hs
    · exact State.takePass_safe _ hs
  case switchLineChange line closed =>
    simp only [exec, execSwitchLineChange] at h
    split at h <;> cases h
    · exact hs
    · exact setDebounce_releaseLaw line true hs
  case switchDebounceExpiry line =>
    simp only [exec, execSwitchDebounceExpiry] at h
    have stopped := setDebounce_releaseLaw line false hs
    repeat' split at h
    all_goals cases h
    · exact stopped
    · exact State.settleZero_safe (State.positionChanged_safe _ _ (take_releaseLaw line _ stopped))
    · exact hs
  case steadyWaitExpiry =>
    simp only [exec, execSteadyWaitExpiry] at h
    split at h <;> cases h
    · exact State.tryExposure_safe (hs.same rfl rfl (.inl rfl))
    · exact hs
  case steadyNotice =>
    simp only [exec, execSteadyNotice] at h
    split at h <;> cases h
    · exact hs
    · exact takeSteady_releaseLaw hs
  case exposureTimerExpiry =>
    simp only [exec, execExposureTimerExpiry] at h
    split at h <;> cases h
    next armed => exact State.settleZero_safe (State.endExposure_safe _ (hs.2.1 _ armed) hs)
    · exact hs
  case stallTimerExpiry =>
    simp only [exec, execStallTimerExpiry] at h
    split at h <;> cases h
    · exact Release.Law.endBurst _ (hs.same rfl rfl (.inl rfl))
    · exact hs
  case ownerPlacesAnswer =>
    simp only [exec, execOwnerPlacesAnswer] at h
    split at h <;> cases h
    · exact State.finishEntry_safe hs
    · exact hs
    · exact hs

/-- Settles O58. -/
theorem stepKeepsTheReleaseLaw : Obligations.StepKeepsTheReleaseLaw := by
  unfold Obligations.StepKeepsTheReleaseLaw
  intro s t hs h
  exact step_keeps (P := fun u => u.release.Law) (fun _ _ hu => hu) (fun _ _ _ hu => exec_releaseLaw hu) hs h

end Sys2Proof.Machine
end

