-- ==== Sys2Proof/Proofs/RecordLaw.lean ====
section
/-! Every step keeps the laws of the active lens record (R29, R33, R36, R37, R43, R83, R84, R181), and the three laws of the
part hold after reset. -/

namespace Sys2Proof.Machine

variable {s t : State} {c : Instr}

/-! ### Requests -/

theorem setLink_recordLaw (u : State) (l : LinkState) (hu : u.RecordLaw) : (u.setLink l).RecordLaw := hu

/-- A request keeps the record's laws if its owner does. -/
theorem request_recordLaw {α : Type} {b : Bool} {read : Bytes → Option α} {p : Bytes} {owner : α → State → State × Answer}
    (hs : s.RecordLaw) (ho : ∀ x, (owner x s).1.RecordLaw) (h : request b (withParams read p owner) s = .next t) :
    t.RecordLaw :=
  request_keeps setLink_recordLaw hs (withParams_keeps (P := State.RecordLaw) hs ho) h

/-- Motion is asked for outside standby, where its owner keeps the laws (R175, step 4). -/
theorem request_awake_recordLaw {α : Type} {read : Bytes → Option α} {p : Bytes} {owner : α → State → State × Answer}
    (hs : s.RecordLaw) (ho : s.standby = false → ∀ x, (owner x s).1.RecordLaw)
    (h : request false (withParams read p owner) s = .next t) : t.RecordLaw :=
  request_keeps_awake setLink_recordLaw hs (fun awake => withParams_keeps (P := State.RecordLaw) hs (ho awake)) h

/-- What a homing of ZOOM and a move of ZOOM have passed: the record is not pinned (R51, R54). -/
theorem unpinned_of_homeRefusal {a : AxisId} (h : s.homeRefusal a = none) : a = .zoom → s.resolver.pinned = false := by
  rintro rfl
  simp only [State.homeRefusal] at h
  repeat' split at h
  all_goals simp_all

theorem unpinned_of_moveRefusal {a : AxisId} {n : Nat} (h : s.moveRefusal a n = none) :
    a = .zoom → s.resolver.pinned = false := by
  rintro rfl
  simp only [State.moveRefusal] at h
  repeat' split at h
  all_goals simp_all

theorem setModeOwner_recordLaw (m : Fin 4) (hs : s.RecordLaw) : (setModeOwner m s).1.RecordLaw := by
  unfold setModeOwner
  repeat' split
  · exact hs
  · exact hs
  · exact State.settleZero_law (State.resolve_law _ hs)

theorem axisHomeOwner_recordLaw (b : Bool) (a : AxisId) (awake : s.standby = false) (hs : s.RecordLaw) :
    (axisHomeOwner b a s).1.RecordLaw := by
  unfold axisHomeOwner
  split
  · exact hs
  next passed => exact State.settleZero_law (State.beginHoming_law a b (unpinned_of_homeRefusal passed) awake hs)

theorem axisMoveOwner_recordLaw (x : AxisId × Nat) (awake : s.standby = false) (hs : s.RecordLaw) :
    (axisMoveOwner x s).1.RecordLaw := by
  unfold axisMoveOwner
  split
  · exact hs
  next passed => exact State.settleZero_law (State.hostMove_law _ _ (unpinned_of_moveRefusal passed) awake hs)

theorem axisCollectOwner_recordLaw (a : AxisId) (hs : s.RecordLaw) : (axisCollectOwner a s).1.RecordLaw := by
  simp only [axisCollectOwner]
  split
  · cases a <;> exact hs
  · exact hs

theorem axisProfileOwner_recordLaw (x : AxisId × Profile) (hs : s.RecordLaw) : (axisProfileOwner x s).1.RecordLaw := by
  obtain ⟨a, r⟩ := x
  unfold axisProfileOwner
  split
  · cases a <;> exact hs
  · exact hs

/-- A sweep that is not refused finds the record resolved and ZOOM at rest (R89). -/
theorem sweepStartOwner_recordLaw (p : SweepParams) (hs : s.RecordLaw) : (sweepStartOwner p s).1.RecordLaw := by
  have taken := State.takeHandoffs_law hs
  simp only [sweepStartOwner]
  split
  · exact hs
  next passed =>
    have passed : s.takeHandoffs.sweepRefusal = none := by
      unfold State.hostSweepRefusal at passed
      split at passed <;> simp_all
    obtain ⟨resolved, rests⟩ := State.sweepRefusal_none passed taken
    exact State.settleZero_law (State.beginSweep_law _ _ resolved rests taken)

theorem sweepContrastOwner_recordLaw (n : Nat) (hs : s.RecordLaw) : (sweepContrastOwner n s).1.RecordLaw := by
  simp only [sweepContrastOwner]
  split
  next awaiting => exact State.settleZero_law (State.judge_law n (by rw [awaiting]; rfl) hs)
  · exact hs

theorem shootOwner_recordLaw (u : Unit) (hs : s.RecordLaw) : (shootOwner u s).1.RecordLaw := by
  simp only [shootOwner]
  split <;> exact State.settleZero_law (State.arm_law _ _ hs)

/-! ### The slots -/

/-- A slot that is given another state of the same kind leaves the record's laws alone. -/
theorem setSlot_recordLaw {r : Release} (i : Fin 12) (x : Slot) (hr : r.slots = (s.release.setSlot i x).slots)
    (hx : x.state.active = (s.release.slots[i]).state.active) (hs : s.RecordLaw) : (s.setRelease r).RecordLaw := by
  refine State.setRelease_law _ (fun pinned => ?_) hs
  rw [Release.anyActive_congr hr, Release.anyActive_setSlot_same _ _ _ hx]
  exact hs.2.1 pinned

theorem slotDevelopedOwner_recordLaw (x : Fin 12 × Nat) (hs : s.RecordLaw) : (slotDevelopedOwner x s).1.RecordLaw := by
  simp only [slotDevelopedOwner]
  split
  · exact hs
  next exposed =>
    split
    · exact setSlot_recordLaw x.1 _ rfl (by rw [Decidable.not_not.mp exposed]; rfl) hs
    · exact hs

theorem slotStoredOwner_recordLaw (i : Fin 12) (hs : s.RecordLaw) : (slotStoredOwner i s).1.RecordLaw := by
  simp only [slotStoredOwner]
  split
  · exact hs
  next developed =>
    refine State.settleZero_law (State.slotFreed_law (setSlot_recordLaw i Slot.cleared rfl ?_ hs))
    rw [Decidable.not_not.mp developed]
    rfl

theorem slotReadOwner_recordLaw (i : Fin 12) (hs : s.RecordLaw) : (slotReadOwner i s).1.RecordLaw :=
  setSlot_recordLaw (s := s) i { s.release.slots[i] with notice := false } rfl rfl hs

theorem discardActive_recordLaw (i : Fin 12) (hs : s.RecordLaw) : (s.discardActive i).RecordLaw :=
  State.letGo_law _ hs

theorem discard_recordLaw (i : Fin 12) (hs : s.RecordLaw) : (s.discard i).RecordLaw := by
  unfold State.discard
  split
  · exact discardActive_recordLaw i hs
  · exact discardActive_recordLaw i (State.setStab_law _ (State.setRelease_slots_law _ rfl hs))
  next exposed => exact State.slotFreed_law (setSlot_recordLaw i _ rfl (by rw [exposed]; rfl) hs)
  next developed => exact State.slotFreed_law (setSlot_recordLaw i _ rfl (by rw [developed]; rfl) hs)
  · exact hs

theorem slotDiscardOwner_recordLaw (i : Fin 12) (hs : s.RecordLaw) : (slotDiscardOwner i s).1.RecordLaw := by
  unfold slotDiscardOwner
  split
  · exact hs
  · exact State.settleZero_law (discard_recordLaw i hs)

theorem endExposure_recordLaw (i : Fin 12) (hs : s.RecordLaw) : (s.endExposure i).RecordLaw :=
  State.letGo_law _ (State.setStab_law _ (State.setRelease_slots_law _ rfl hs))

/-! ### Events -/

theorem takeSteady_recordLaw (hs : s.RecordLaw) : s.takeSteady.RecordLaw := by
  unfold State.takeSteady
  split
  · exact State.tryExposure_law (State.setRelease_slots_law _ rfl hs)
  · exact hs

theorem shotIfDue_recordLaw (hs : s.RecordLaw) : s.shotIfDue.RecordLaw := by
  unfold State.shotIfDue
  split
  · exact State.armBurst_law (State.setRelease_slots_law _ rfl hs)
  · exact hs

theorem takeCode_recordLaw (n : Nat) (hs : s.RecordLaw) : (s.takeCode n).RecordLaw := by
  simp only [State.takeCode]
  repeat' split
  · exact hs
  · exact hs
  · exact hs
  · exact hs
  · exact State.resolve_law _ hs

theorem zoneMeasured_recordLaw (w : Working) (z : Fin 8) (r : ZoneResult) (hs : s.RecordLaw) :
    (s.zoneMeasured w z r).RecordLaw := by
  simp only [State.zoneMeasured]
  repeat' split
  all_goals exact hs

/-- A zoom that waits for a band is in no standby (R181). -/
theorem awake_of_waitMap (hs : s.RecordLaw) (waits : s.zoom.state = .waitMap) : s.standby = false := by
  by_contra asleep
  have rests := (hs.2.2.2.2 (Bool.eq_true_of_not_eq_false asleep)).2
  rw [waits] at rests
  cases rests

theorem setAxis_same_recordLaw (a : AxisId) (r : AxisRecord) (hr : r.state = (s.axis a).state) (hs : s.RecordLaw) :
    (s.setAxis a r).RecordLaw := by
  cases a
  case zoom => exact State.setZoom_law s _ hr hs
  case focus | iris => exact State.setAxis_law s _ _ (by decide) hs

theorem setDebounce_recordLaw (line : SwitchLine) (b : Bool) (hs : s.RecordLaw) :
    (s.setRelease (s.release.setDebounce line b)).RecordLaw := by
  cases line <;> exact State.setRelease_slots_law _ rfl hs

theorem take_recordLaw (line : SwitchLine) (b : Bool) (hs : s.RecordLaw) :
    (s.setRelease (s.release.take line b)).RecordLaw := by
  cases line <;> exact State.setRelease_slots_law _ rfl hs

/-- The record is unresolved and unpinned after reset, and the part is awake. -/
theorem recordLaw_reset : State.reset.RecordLaw := by
  unfold State.RecordLaw
  decide

/-! ### Every command -/

theorem exec_recordLaw (hs : s.RecordLaw) (h : exec c s = .next t) : t.RecordLaw := by
  cases c
  case setMode => exact request_recordLaw hs (fun m => setModeOwner_recordLaw m hs) h
  case axisHome b => exact request_awake_recordLaw hs (fun awake a => axisHomeOwner_recordLaw b a awake hs) h
  case axisMove => exact request_awake_recordLaw hs (fun awake x => axisMoveOwner_recordLaw x awake hs) h
  case axisStop =>
    refine request_awake_recordLaw hs (fun awake a => ?_) h
    unfold axisStopOwner
    exact State.settleZero_law (State.stopMove_law a awake hs)
  case axisCollect => exact request_recordLaw hs (fun a => axisCollectOwner_recordLaw a hs) h
  case axisProfile => exact request_recordLaw hs (fun x => axisProfileOwner_recordLaw x hs) h
  case sweepStart => exact request_recordLaw hs (fun p => sweepStartOwner_recordLaw p hs) h
  case sweepContrast => exact request_recordLaw hs (fun n => sweepContrastOwner_recordLaw n hs) h
  case shoot => exact request_recordLaw hs (fun u => shootOwner_recordLaw u hs) h
  case slotDeveloped => exact request_recordLaw hs (fun x => slotDevelopedOwner_recordLaw x hs) h
  case slotStored => exact request_recordLaw hs (fun i => slotStoredOwner_recordLaw i hs) h
  case slotDiscard => exact request_recordLaw hs (fun i => slotDiscardOwner_recordLaw i hs) h
  case slotRead => exact request_recordLaw hs (fun i => slotReadOwner_recordLaw i hs) h
  case clear =>
    refine request_awake_recordLaw hs (fun awake _ => ?_) h
    simp only [clearOwner]
    exact State.settleZero_law (State.clearParts_law _ _ _ awake hs)
  case standby =>
    refine request_recordLaw hs (fun scope => ?_) h
    unfold standbyOwner
    split
    next rests => exact State.enterStandby_law scope rests hs
    · exact hs
  case wake =>
    refine request_recordLaw hs (fun _ => ?_) h
    unfold wakeOwner
    split
    · exact State.wakeUp_law hs
    · exact hs
  case mapWrite | mapInstall | mapRetire | mapPurge =>
    refine request_recordLaw hs (fun _ => ?_) h
    unfold takeUpdate
    repeat' split
    all_goals exact hs
  case mapRead | mapProbe | meterSetup | meterStart | meterReference | programWrite | storeCapacity =>
    refine request_recordLaw hs (fun _ => ?_) h
    simp only [mapReadOwner, mapProbeOwner, meterSetupOwner, meterStartOwner, meterReferenceOwner, programWriteOwner,
      storeCapacityOwner]
    repeat' split
    all_goals exact hs
  case mapLock | mapStatus | readLens | axisRead | sweepPreset | sweepRead | meterEnable | meterStop | meterRead | meterClear |
      exposureSetup | aeLock | aeUnlock | exposureRead | stabSetup | stabRead | status | releaseSetup | sizeTableWrite |
      releaseRead =>
    exact request_recordLaw hs (fun _ => hs) h
  case powerOnReset =>
    cases h
    exact recordLaw_reset
  case emptyTransaction | profileHoldOffExpiry | frameStartPulse | gyroTransferDiscarded =>
    cases h
    exact hs
  case gyroSample =>
    cases h
    split <;> exact hs
  case requestFrameRejected | requestFrameDropped =>
    simp only [exec, execRequestFrameRejected, execRequestFrameDropped] at h
    obtain ⟨l, dropped⟩ := dropFrame_eq s
    repeat' split at h
    all_goals
      cases h
      simp only [dropped, hs, setLink_recordLaw]
  case readTransaction | silenceTimerExpiry | stabLoadNotice | stabUnresolvedNotice =>
    simp only [exec, execReadTransaction, execSilenceTimerExpiry, execStabLoadNotice, execStabUnresolvedNotice] at h
    repeat' split at h
    all_goals
      cases h
      exact hs
  case holdReleaseExpiry a =>
    simp only [exec, execHoldReleaseExpiry] at h
    split at h <;> cases h
    · exact setAxis_same_recordLaw a _ rfl hs
    · exact hs
  case referenceTargetReached | timeBaseExhausted | sensorPhaseEnd =>
    simp only [exec, execReferenceTargetReached, execTimeBaseExhausted, execSensorPhaseEnd] at h
    repeat' split at h
    all_goals cases h
    any_goals exact hs
    all_goals exact zoneMeasured_recordLaw _ _ _ hs
  case queueDrain =>
    simp only [exec, execQueueDrain] at h
    split at h <;> cases h
    · exact hs
    · exact State.settleZero_law (State.drained_law hs)
  case updateReport =>
    simp only [exec, execUpdateReport] at h
    split at h <;> cases h
    · exact hs
    · exact State.settleZero_law (State.examine_law _ hs)
  case accessorySample =>
    simp only [exec, execAccessorySample] at h
    split at h <;> cases h
    · exact State.settleZero_law (takeCode_recordLaw _ hs)
    · exact hs
  case refillTimerExpiry =>
    simp only [exec, execRefillTimerExpiry] at h
    split at h <;> cases h
    next waits => exact State.settleZero_law (State.zoomEndWait_law _ (awake_of_waitMap hs waits.1) hs)
    · exact hs
  case pinReleaseNotice =>
    simp only [exec, execPinReleaseNotice] at h
    split at h <;> cases h
    · exact hs
    · exact State.settleZero_law (shotIfDue_recordLaw hs)
  case stepIntervalExpiry a sensor =>
    simp only [exec, execStepIntervalExpiry] at h
    split at h <;> cases h
    · exact hs
    · exact State.settleZero_law (State.decideAxis_law _ _ (setAxis_same_recordLaw a _ rfl hs))
  case wakeTimerExpiry a sensor =>
    simp only [exec, execWakeTimerExpiry] at h
    split at h <;> cases h
    · exact hs
    · exact State.settleZero_law (State.decideAxis_law _ _ (setAxis_same_recordLaw a _ rfl hs))
  case settleTimerExpiry =>
    simp only [exec, execSettleTimerExpiry] at h
    split at h <;> cases h
    · exact State.settleZero_law (State.settleExpired_law _ hs)
    · exact hs
  case trackingLoad =>
    simp only [exec, execTrackingLoad] at h
    split at h <;> cases h
    · exact hs
    · exact State.settleZero_law (State.track_law _ _ hs)
  case contrastDeadlineExpiry =>
    simp only [exec, execContrastDeadlineExpiry] at h
    split at h <;> cases h
    · exact State.settleZero_law (State.endSweep_law _ hs)
    · exact hs
  case sceneCompute =>
    simp only [exec, execSceneCompute] at h
    split at h <;> cases h
    · exact hs
    · exact State.takePass_law _ hs
  case switchLineChange line closed =>
    simp only [exec, execSwitchLineChange] at h
    split at h <;> cases h
    · exact hs
    · exact setDebounce_recordLaw line true hs
  case switchDebounceExpiry line =>
    simp only [exec, execSwitchDebounceExpiry] at h
    have stopped := setDebounce_recordLaw line false hs
    repeat' split at h
    all_goals cases h
    · exact stopped
    · exact State.settleZero_law (State.positionChanged_law _ _ (take_recordLaw line _ stopped))
    · exact hs
  case steadyWaitExpiry =>
    simp only [exec, execSteadyWaitExpiry] at h
    split at h <;> cases h
    · exact State.tryExposure_law (State.setRelease_slots_law _ rfl hs)
    · exact hs
  case steadyNotice =>
    simp only [exec, execSteadyNotice] at h
    split at h <;> cases h
    · exact hs
    · exact takeSteady_recordLaw hs
  case exposureTimerExpiry =>
    simp only [exec, execExposureTimerExpiry] at h
    split at h <;> cases h
    · exact State.settleZero_law (endExposure_recordLaw _ hs)
    · exact hs
  case stallTimerExpiry =>
    simp only [exec, execStallTimerExpiry] at h
    split at h <;> cases h
    · exact State.setRelease_slots_law _ rfl hs
    · exact hs
  case ownerPlacesAnswer =>
    simp only [exec, execOwnerPlacesAnswer] at h
    split at h <;> cases h
    · exact State.finishEntry_law hs
    · exact hs
    · exact hs

/-- Settles O28. -/
theorem stepKeepsTheRecordLaw : Obligations.StepKeepsTheRecordLaw := by
  unfold Obligations.StepKeepsTheRecordLaw
  intro s t hs h
  exact step_keeps (fun _ _ hu => hu) (fun _ _ _ hu => exec_recordLaw hu) hs h

/-- Settles O24. -/
theorem lawsHoldAtReset : Obligations.LawsHoldAtReset := by
  unfold Obligations.LawsHoldAtReset
  exact ⟨mapLaw_reset, releaseLaw_reset, recordLaw_reset⟩

end Sys2Proof.Machine
end

