-- ==== Sys2Proof/Proofs/WireItems.lean ====
section
/-! Items on the wire (R177): what the bytes of an item read as, and that a reading and a writing of it undo one another. -/

namespace Sys2Proof.Machine

/-! ### Numbers -/

theorem toNat_ofNat_byte {n : Nat} (h : n ≤ 255) : (BitVec.ofNat 8 n).toNat = n := Nat.mod_eq_of_lt (by omega)

@[simp] theorem u8_toNat (b : Byte) : u8 b.toNat = [b] := by simp [u8]

@[simp] theorem u16_nat16 (b0 b1 : Byte) : u16 (nat16 b0 b1) = [b0, b1] := by
  simp only [u16, nat16, List.cons.injEq, and_true]
  constructor <;> bv_omega

@[simp] theorem u24_nat24 (b0 b1 b2 : Byte) : u24 (nat24 b0 b1 b2) = [b0, b1, b2] := by
  simp only [u24, nat24, List.cons.injEq, and_true]
  refine ⟨?_, ?_, ?_⟩ <;> bv_omega

@[simp] theorem s16_int16 (b0 b1 : Byte) : s16 (int16 b0 b1) = [b0, b1] := by
  have fits : nat16 b0 b1 < 2 ^ 16 := by have := b0.isLt; have := b1.isLt; unfold nat16; omega
  have same : (BitVec.ofInt 16 (int16 b0 b1)).toNat = nat16 b0 b1 := by
    rw [int16, BitVec.ofInt_toInt, BitVec.toNat_ofNat, Nat.mod_eq_of_lt fits]
  rw [s16, same, u16_nat16]

theorem nat16_le (b0 b1 : Byte) : nat16 b0 b1 ≤ 65535 := by
  have := b0.isLt
  have := b1.isLt
  unfold nat16
  omega

theorem nat24_le (b0 b1 b2 : Byte) : nat24 b0 b1 b2 ≤ 16777215 := by
  have := b0.isLt
  have := b1.isLt
  have := b2.isLt
  unfold nat24
  omega

theorem toNat_byte_le (b : Byte) : b.toNat ≤ 255 := Nat.le_of_lt_succ b.isLt

theorem int16_bounds (b0 b1 : Byte) : -32768 ≤ int16 b0 b1 ∧ int16 b0 b1 ≤ 32767 :=
  ⟨BitVec.le_toInt _, Int.le_of_lt_add_one (BitVec.toInt_lt)⟩

theorem nat16_u16 {n : Nat} (h : n ≤ 65535) : nat16 (BitVec.ofNat 8 n) (BitVec.ofNat 8 (n / 256)) = n := by
  simp only [nat16, BitVec.toNat_ofNat]
  omega

theorem nat24_u24 {n : Nat} (h : n ≤ 16777215) :
    nat24 (BitVec.ofNat 8 n) (BitVec.ofNat 8 (n / 256)) (BitVec.ofNat 8 (n / 65536)) = n := by
  simp only [nat24, BitVec.toNat_ofNat]
  omega

theorem int16_s16 {i : Int} (low : -32768 ≤ i) (high : i ≤ 32767) :
    int16 (BitVec.ofNat 8 (BitVec.ofInt 16 i).toNat) (BitVec.ofNat 8 ((BitVec.ofInt 16 i).toNat / 256)) = i := by
  rw [int16, nat16_u16 (Nat.le_of_lt_succ (BitVec.ofInt 16 i).isLt), BitVec.ofNat_toNat, BitVec.setWidth_eq,
    BitVec.toInt_ofInt, Int.bmod_eq_of_le] <;> omega

/-! ### Marks, indexes, and conditions -/

theorem flag?_eq_some {b : Byte} {g : Bool} : flag? b = some g ↔ b = if g then 1#8 else 0#8 := by
  constructor
  · intro h
    unfold flag? at h
    split_ifs at h with clear set <;> cases h
    · exact clear
    · exact set
  · rintro rfl
    cases g <;> rfl

@[simp] theorem flag?_flag (g : Bool) : flag? (if g then 1#8 else 0#8) = some g := flag?_eq_some.mpr rfl

theorem flag_of_flag? {b : Byte} {g : Bool} (h : flag? b = some g) : flag g = [b] := by
  rw [flag, flag?_eq_some.mp h]

theorem fin?_eq_some {n k : Nat} {i : Fin n} : fin? n k = some i ↔ k = i.val := by
  unfold fin?
  split
  · simp [Fin.ext_iff]
  · simp only [reduceCtorEq, false_iff]
    omega

theorem when_eq_some {α : Type} {c : Bool} {x y : α} : when c x = some y ↔ c = true ∧ x = y := by
  cases c <;> simp [when]

/-- The byte of an axis (R177). -/
theorem axis?_eq_some {b : Byte} {a : AxisId} :
    axis? b = some a ↔ b = match a with | .zoom => 0#8 | .focus => 1#8 | .iris => 2#8 := by
  constructor
  · intro h
    unfold axis? at h
    split_ifs at h with zoom focus iris <;> cases h
    · exact zoom
    · exact focus
    · exact iris
  · rintro rfl
    cases a <;> rfl

/-- An index is its byte. -/
theorem u8_of_fin? {n : Nat} {b : Byte} {i : Fin n} (h : fin? n b.toNat = some i) : u8 i.val = [b] := by
  rw [← fin?_eq_some.mp h, u8_toNat]

end Sys2Proof.Machine
end

