-- ==== Sys2Proof/Proofs/MapParameters.lean ====
section
/-! The parameters of the map's requests, byte for byte, and their ranges (R8, R177). -/

namespace Sys2Proof.Machine

theorem finParam_eq_some {n : Nat} (hn : n ≤ 256) {p : Bytes} {i : Fin n} :
    finParam n p = some i ↔ p = [BitVec.ofNat 8 i.val] := by
  constructor
  · intro h
    unfold finParam at h
    split at h
    · exact (u8_of_fin? h).symm
    · cases h
  · rintro rfl
    exact finParam_byte i hn

theorem probeParams_eq_some {p : Bytes} {q : Pair} : probeParams p = some q ↔
    q.context ≤ 15 ∧ q.band ≤ 63 ∧ p = [BitVec.ofNat 8 q.context, BitVec.ofNat 8 q.band] := by
  constructor
  · intro h
    unfold probeParams at h
    split at h
    · obtain ⟨inRange, rfl⟩ := when_eq_some.mp h
      obtain ⟨context, band⟩ := of_decide_eq_true inRange
      exact ⟨context, band, by simp⟩
    · cases h
  · rintro ⟨context, band, rfl⟩
    exact probeParams_bytes context band

/-- The range check of an entry in the order of R1 and R8. -/
theorem Entry.inRange_iff {e : Entry} : e.inRange = true ↔
    e.context ≤ 15 ∧ e.band ≤ 63 ∧ -2000 ≤ e.offset ∧ e.offset ≤ 2000 ∧ e.far ≤ e.near ∧ e.near ≤ 4095 ∧
      e.widestIris ≤ 63 ∧ e.loss ≤ 64 ∧ e.gain ≤ 255 := by
  simp only [Entry.inRange, decide_eq_true_eq]
  omega

theorem entryParam_eq_some {p : Bytes} {e : Entry} : entryParam p = some e ↔
    (e.context ≤ 15 ∧ e.band ≤ 63 ∧ -2000 ≤ e.offset ∧ e.offset ≤ 2000 ∧ e.far ≤ e.near ∧ e.near ≤ 4095 ∧
      e.widestIris ≤ 63 ∧ e.loss ≤ 64 ∧ e.gain ≤ 255) ∧
    p = u8 e.context ++ u8 e.band ++ flag e.global ++ flag e.valid ++ flag e.drivePermit ++ s16 e.offset ++ u16 e.far ++
      u16 e.near ++ u8 e.widestIris ++ u8 e.loss ++ u8 e.gain := by
  constructor
  · intro h
    unfold entryParam at h
    split at h
    · simp only [Option.bind_eq_bind, Option.bind_eq_some_iff, when_eq_some] at h
      obtain ⟨_, isGlobal, _, valid, _, permit, inRange, rfl⟩ := h
      refine ⟨Entry.inRange_iff.mp inRange, ?_⟩
      simp [flag_of_flag? isGlobal, flag_of_flag? valid, flag_of_flag? permit]
    · cases h
  · rintro ⟨inRange, rfl⟩
    have checked := Entry.inRange_iff.mpr inRange
    obtain ⟨context, band, low, high, far, near, iris, loss, gain⟩ := inRange
    simp (disch := omega) only [u8, flag, s16, u16, List.cons_append, List.nil_append, entryParam, flag?_flag,
      Option.bind_eq_bind, Option.bind_some, toNat_ofNat_byte, nat16_u16, int16_s16]
    exact when_eq_some.mpr ⟨checked, rfl⟩

theorem writeParams_eq_some {p : Bytes} {i : Fin 32} {e : Entry} : writeParams p = some (i, e) ↔
    ∃ rest, p = BitVec.ofNat 8 i.val :: rest ∧ entryParam rest = some e := by
  constructor
  · intro h
    unfold writeParams at h
    split at h
    next b rest =>
      simp only [Option.bind_eq_bind, Option.bind_eq_some_iff, Option.some.injEq, Prod.mk.injEq] at h
      obtain ⟨_, index, _, entry, rfl, rfl⟩ := h
      have byte := u8_of_fin? index
      exact ⟨rest, by rw [← (List.cons.inj byte).1], entry⟩
    · cases h
  · rintro ⟨rest, rfl, entry⟩
    have index : fin? 32 (BitVec.ofNat 8 i.val).toNat = some i := finParam_byte i (by decide)
    simp only [writeParams, index, entry, Option.bind_eq_bind, Option.bind_some]

/-- Settles O12. -/
theorem mapParametersOnTheWire : Obligations.MapParametersOnTheWire := by
  unfold Obligations.MapParametersOnTheWire
  exact ⟨fun _ _ _ hn => finParam_eq_some hn, fun _ _ => probeParams_eq_some, fun _ _ => entryParam_eq_some,
    fun _ _ _ => writeParams_eq_some⟩

end Sys2Proof.Machine
end

