-- ==== Sys2Proof/Proofs/AxisParameters.lean ====
section
/-! The parameters of the axes' and the sweep's requests, byte for byte, and their ranges (R54, R66, R89, R94, R177; log 5). -/

namespace Sys2Proof.Machine

theorem axisParam_eq_some {p : Bytes} {a : AxisId} :
    axisParam p = some a ↔ p = [match a with | .zoom => 0#8 | .focus => 1#8 | .iris => 2#8] := by
  constructor
  · intro h
    unfold axisParam at h
    split at h
    · have byte := axis?_eq_some.mp h
      cases a <;> exact congrArg (fun b => [b]) byte
    · cases h
  · rintro rfl
    exact axis?_eq_some.mpr rfl

/-- An axis that moves between the positions of two bytes, or of one (log 5). -/
theorem moveParams_eq_some {p : Bytes} {a : AxisId} {n : Nat} : moveParams p = some (a, n) ↔
    (match a with
     | .zoom => n ≤ 1599 ∧ p = 0#8 :: u16 n
     | .focus => n ≤ 4095 ∧ p = 1#8 :: u16 n
     | .iris => n ≤ 63 ∧ p = 2#8 :: u8 n) := by
  constructor
  · intro h
    unfold moveParams at h
    split at h
    · simp only [Option.bind_eq_bind, Option.bind_eq_some_iff, when_eq_some, Prod.mk.injEq, decide_eq_true_eq] at h
      obtain ⟨_, axis, ⟨rfl, inRange⟩, rfl, rfl⟩ := h
      exact ⟨inRange, by rw [axis?_eq_some.mp axis, u8_toNat]⟩
    · simp only [Option.bind_eq_bind, Option.bind_eq_some_iff, when_eq_some, Prod.mk.injEq, decide_eq_true_eq] at h
      obtain ⟨b, axis, ⟨wide, inRange⟩, rfl, rfl⟩ := h
      rw [axis?_eq_some.mp axis]
      cases b
      case zoom | focus => exact ⟨inRange, by rw [u16_nat16]⟩
      case iris => exact absurd rfl wide
    · cases h
  · intro h
    cases a
    case zoom =>
      obtain ⟨inRange, rfl⟩ := h
      simp (disch := omega) only [moveParams, u16, nat16_u16]
      simpa [axis?, when, lastPosition] using inRange
    case focus =>
      obtain ⟨inRange, rfl⟩ := h
      simp (disch := omega) only [moveParams, u16, nat16_u16]
      simpa [axis?, when, lastPosition] using inRange
    case iris =>
      obtain ⟨inRange, rfl⟩ := h
      simp (disch := omega) only [moveParams, u8, toNat_ofNat_byte]
      simpa [axis?, when, lastPosition] using inRange

theorem profileParams_eq_some {p : Bytes} {a : AxisId} {r : Profile} : profileParams p = some (a, r) ↔
    (200 ≤ r.stepInterval ∧ r.stepInterval ≤ 20000 ∧ r.settle ≤ 255 ∧ r.holdRelease ≤ 5000 ∧ 1 ≤ r.wake ∧ r.wake ≤ 50 ∧
      r.backlash ≤ 63) ∧
    ∃ x, axisParam [x] = some a ∧
      p = x :: (u16 r.stepInterval ++ u8 r.settle ++ u16 r.holdRelease ++ u8 r.wake ++ u8 r.backlash) := by
  constructor
  · intro h
    unfold profileParams at h
    split at h
    · simp only [Option.bind_eq_bind, Option.bind_eq_some_iff, when_eq_some, Prod.mk.injEq] at h
      obtain ⟨_, axis, inRange, rfl, rfl⟩ := h
      exact ⟨of_decide_eq_true inRange, _, axis, by simp⟩
    · cases h
  · rintro ⟨inRange, x, axis, rfl⟩
    have checked : r.inRange = true := decide_eq_true inRange
    have axis : axis? x = some a := axis
    obtain ⟨-, interval, settle, hold, -, wake, backlash⟩ := inRange
    simp (disch := omega) only [u8, u16, List.cons_append, List.nil_append, profileParams, axis,
      Option.bind_eq_bind, Option.bind_some, toNat_ofNat_byte, nat16_u16]
    exact when_eq_some.mpr ⟨checked, rfl⟩

/-- A condition byte and its value (R177): 0 is REACH, 1 is PEAK with a margin of at least 1. -/
theorem condition?_eq_some {c v0 v1 : Byte} {k : SweepCondition} : condition? c v0 v1 = some k ↔
    (match k with
     | .reach v => v ≤ 65535 ∧ [c, v0, v1] = 0#8 :: u16 v
     | .peak v => 1 ≤ v ∧ v ≤ 65535 ∧ [c, v0, v1] = 1#8 :: u16 v) := by
  constructor
  · intro h
    unfold condition? at h
    split_ifs at h with reach peak
    · cases h
      exact ⟨nat16_le v0 v1, by rw [reach, u16_nat16]⟩
    · obtain ⟨margin, rfl⟩ := when_eq_some.mp h
      exact ⟨of_decide_eq_true margin, nat16_le v0 v1, by rw [peak, u16_nat16]⟩
  · intro h
    cases k
    case reach v =>
      obtain ⟨fits, bytes⟩ := h
      simp only [u16, List.cons.injEq, and_true] at bytes
      obtain ⟨rfl, rfl, rfl⟩ := bytes
      rw [condition?, if_pos rfl, nat16_u16 fits]
    case peak v =>
      obtain ⟨margin, fits, bytes⟩ := h
      simp only [u16, List.cons.injEq, and_true] at bytes
      obtain ⟨rfl, rfl, rfl⟩ := bytes
      rw [condition?, if_neg (by decide), if_pos rfl, nat16_u16 fits]
      exact when_eq_some.mpr ⟨decide_eq_true margin, rfl⟩

theorem sweepParams_eq_some {p : Bytes} {w : SweepParams} : sweepParams p = some w ↔
    (w.start ≤ 4095 ∧ w.last ≤ 4095 ∧ 1 ≤ w.stride ∧ w.stride ≤ 64) ∧
    (match w.condition with
     | .reach v => v ≤ 65535 ∧ p = u16 w.start ++ u16 w.last ++ u8 w.stride ++ [0#8] ++ u16 v
     | .peak v => 1 ≤ v ∧ v ≤ 65535 ∧ p = u16 w.start ++ u16 w.last ++ u8 w.stride ++ [1#8] ++ u16 v) := by
  constructor
  · intro h
    unfold sweepParams at h
    split at h
    · simp only [Option.bind_eq_bind, Option.bind_eq_some_iff, when_eq_some] at h
      obtain ⟨k, condition, inRange, rfl⟩ := h
      have bytes := condition?_eq_some.mp condition
      refine ⟨of_decide_eq_true inRange, ?_⟩
      cases k
      case reach v =>
        obtain ⟨fits, bytes⟩ := bytes
        exact ⟨fits, by simp [bytes]⟩
      case peak v =>
        obtain ⟨margin, fits, bytes⟩ := bytes
        exact ⟨margin, fits, by simp [bytes]⟩
    · cases h
  · rintro ⟨inRange, layout⟩
    obtain ⟨start, last, stride, k⟩ := w
    have reads (c v0 v1 : Byte) (condition : condition? c v0 v1 = some k) :
        sweepParams (u16 start ++ u16 last ++ u8 stride ++ [c] ++ [v0, v1]) = some ⟨start, last, stride, k⟩ := by
      dsimp only at inRange
      simp (disch := omega) only [u8, u16, List.cons_append, List.nil_append, sweepParams, condition, Option.bind_eq_bind,
        Option.bind_some, toNat_ofNat_byte, nat16_u16]
      exact when_eq_some.mpr ⟨decide_eq_true inRange, rfl⟩
    cases k
    case reach v =>
      obtain ⟨fits, rfl⟩ := layout
      exact reads _ _ _ (condition?_eq_some.mpr ⟨fits, rfl⟩)
    case peak v =>
      obtain ⟨margin, fits, rfl⟩ := layout
      exact reads _ _ _ (condition?_eq_some.mpr ⟨margin, fits, rfl⟩)

theorem contrastParam_eq_some {p : Bytes} {v : Nat} : contrastParam p = some v ↔ v ≤ 65535 ∧ p = u16 v := by
  constructor
  · intro h
    unfold contrastParam at h
    split at h <;> cases h
    exact ⟨nat16_le _ _, (u16_nat16 _ _).symm⟩
  · rintro ⟨fits, rfl⟩
    exact congrArg some (nat16_u16 fits)

/-- Settles O13. -/
theorem axisAndSweepParametersOnTheWire : Obligations.AxisAndSweepParametersOnTheWire := by
  unfold Obligations.AxisAndSweepParametersOnTheWire
  exact ⟨fun _ _ => axisParam_eq_some, fun _ _ _ => moveParams_eq_some, fun _ _ _ => profileParams_eq_some,
    fun _ _ => sweepParams_eq_some, fun _ _ => contrastParam_eq_some⟩

end Sys2Proof.Machine
end

