-- ==== Sys2Proof/Proofs/OtherParameters.lean ====
section
/-! The parameters of the requests to metering, exposure, Stabilizer, release, store and link, byte for byte, and their ranges
(R105, R112, R118, R122, R125, R128, R129, R146, R164, R165, R170, R177, R181). -/

namespace Sys2Proof.Machine

/-! ### Named choices -/

theorem flagParam_eq_some {p : Bytes} {b : Bool} : flagParam p = some b ↔ p = [if b then 1#8 else 0#8] := by
  constructor
  · intro h
    unfold flagParam at h
    split at h
    · rw [flag?_eq_some.mp h]
    · cases h
  · rintro rfl
    exact flag?_flag b

theorem meterMode?_eq_some {b : Byte} {m : MeterMode} :
    meterMode? b = some m ↔ b = match m with | .single => 0#8 | .continuous => 1#8 := by
  constructor
  · intro h
    unfold meterMode? at h
    split_ifs at h with single continuous <;> cases h
    · exact single
    · exact continuous
  · rintro rfl
    cases m <;> rfl

theorem trigger?_eq_some {b : Byte} {k : Trigger} :
    trigger? b = some k ↔ b = match k with | .request => 0#8 | .frame => 1#8 | .half => 2#8 := by
  constructor
  · intro h
    unfold trigger? at h
    split_ifs at h with request frame half <;> cases h
    · exact request
    · exact frame
    · exact half
  · rintro rfl
    cases k <;> rfl

theorem exposureMode?_eq_some {b : Byte} {m : ExposureMode} :
    exposureMode? b = some m ↔ b = match m with | .auto => 0#8 | .manual => 1#8 := by
  constructor
  · intro h
    unfold exposureMode? at h
    split_ifs at h with auto manual <;> cases h
    · exact auto
    · exact manual
  · rintro rfl
    cases m <;> rfl

theorem releaseMode?_eq_some {b : Byte} {m : ReleaseMode} :
    releaseMode? b = some m ↔ b = match m with | .single => 0#8 | .burst => 1#8 := by
  constructor
  · intro h
    unfold releaseMode? at h
    split_ifs at h with single burst <;> cases h
    · exact single
    · exact burst
  · rintro rfl
    cases m <;> rfl

theorem scopeParam_eq_some {p : Bytes} {c : StandbyScope} :
    scopeParam p = some c ↔ p = [match c with | .all => 0#8 | .locked => 1#8 | .none => 2#8] := by
  constructor
  · intro h
    unfold scopeParam at h
    split at h
    · split_ifs at h with all locked none <;> cases h
      · rw [all]
      · rw [locked]
      · rw [none]
    · cases h
  · rintro rfl
    cases c <;> rfl

/-! ### Metering, exposure, Stabilizer and release -/

theorem meterParams_eq_some {p : Bytes} {u : MeterSetup} : meterParams p = some u ↔
    u.first ≤ u.last ∧ 256 ≤ u.target ∧ u.target ≤ 65535 ∧
    p = u8 u.first.val ++ u8 u.last.val ++ [match u.mode with | .single => 0#8 | .continuous => 1#8] ++
      [match u.trigger with | .request => 0#8 | .frame => 1#8 | .half => 2#8] ++ u16 u.target ++ flag u.notify := by
  constructor
  · intro h
    unfold meterParams at h
    split at h
    · simp only [Option.bind_eq_bind, Option.bind_eq_some_iff, when_eq_some] at h
      obtain ⟨_, first, _, last, _, mode, _, trigger, _, notify, inRange, rfl⟩ := h
      obtain ⟨order, target⟩ := of_decide_eq_true inRange
      refine ⟨order, target, nat16_le _ _, ?_⟩
      rw [u8_of_fin? first, u8_of_fin? last, meterMode?_eq_some.mp mode, trigger?_eq_some.mp trigger, u16_nat16,
        flag_of_flag? notify]
      rfl
    · cases h
  · rintro ⟨order, low, high, rfl⟩
    have first : fin? 8 (BitVec.ofNat 8 u.first.val).toNat = some u.first := finParam_byte u.first (by decide)
    have last : fin? 8 (BitVec.ofNat 8 u.last.val).toNat = some u.last := finParam_byte u.last (by decide)
    have mode := meterMode?_eq_some.mpr (Eq.refl (match u.mode with | .single => 0#8 | .continuous => 1#8))
    have trigger := trigger?_eq_some.mpr (Eq.refl (match u.trigger with | .request => 0#8 | .frame => 1#8 | .half => 2#8))
    simp (disch := omega) only [u8, u16, flag, List.cons_append, List.nil_append, meterParams, first, last, mode, trigger,
      flag?_flag, Option.bind_eq_bind, Option.bind_some, nat16_u16]
    exact when_eq_some.mpr ⟨decide_eq_true ⟨order, low⟩, rfl⟩

/-- A signed byte in two's complement. -/
theorem s8_toInt (b : Byte) : s8 b.toInt = [b] := by
  rw [s8, BitVec.ofInt_toInt]

theorem toInt_s8 {i : Int} (low : -128 ≤ i) (high : i ≤ 127) : (BitVec.ofInt 8 i).toInt = i := by
  rw [BitVec.toInt_ofInt, Int.bmod_eq_of_le] <;> omega

/-- A table of eight numbers, written out. -/
theorem exists_weights (w : Vector Nat 8) : ∃ w0 w1 w2 w3 w4 w5 w6 w7, w = #v[w0, w1, w2, w3, w4, w5, w6, w7] :=
  ⟨w[0], w[1], w[2], w[3], w[4], w[5], w[6], w[7], by
    refine table_ext fun i => ?_
    fin_cases i <;> rfl⟩

theorem exposureParams_eq_some {p : Bytes} {u : ExposureSetup} : exposureParams p = some u ↔
    (∀ z : Fin 8, u.weights[z] ≤ 15) ∧ -48 ≤ u.compensation ∧ u.compensation ≤ 48 ∧ 20 ≤ u.manual.time ∧
    u.manual.time ≤ 8000000 ∧ u.manual.iris ≤ 63 ∧ u.manual.gain ≤ 96 ∧
    p = u.weights.toList.map (BitVec.ofNat 8) ++ s8 u.compensation ++
      [match u.mode with | .auto => 0#8 | .manual => 1#8] ++ u24 u.manual.time ++ u8 u.manual.iris ++ u8 u.manual.gain := by
  constructor
  · intro h
    unfold exposureParams at h
    split at h
    · simp only [Option.bind_eq_bind, Option.bind_eq_some_iff, when_eq_some, Bool.and_eq_true, decide_eq_true_eq,
        Settings.inRange] at h
      obtain ⟨m, mode, ⟨⟨weights, low, high⟩, short, long, iris, gain⟩, rfl⟩ := h
      refine ⟨?_, low, high, short, long, iris, gain, ?_⟩
      · simpa [Fin.forall_fin_succ] using weights
      · rw [s8_toInt, u24_nat24, exposureMode?_eq_some.mp mode]
        simp
    · cases h
  · rintro ⟨weights, low, high, short, long, iris, gain, rfl⟩
    have mode := exposureMode?_eq_some.mpr (Eq.refl (match u.mode with | .auto => 0#8 | .manual => 1#8))
    obtain ⟨w0, w1, w2, w3, w4, w5, w6, w7, table⟩ := exists_weights u.weights
    rw [table] at weights ⊢
    have h0 : w0 ≤ 15 := weights 0
    have h1 : w1 ≤ 15 := weights 1
    have h2 : w2 ≤ 15 := weights 2
    have h3 : w3 ≤ 15 := weights 3
    have h4 : w4 ≤ 15 := weights 4
    have h5 : w5 ≤ 15 := weights 5
    have h6 : w6 ≤ 15 := weights 6
    have h7 : w7 ≤ 15 := weights 7
    show exposureParams [BitVec.ofNat 8 w0, BitVec.ofNat 8 w1, BitVec.ofNat 8 w2, BitVec.ofNat 8 w3, BitVec.ofNat 8 w4,
      BitVec.ofNat 8 w5, BitVec.ofNat 8 w6, BitVec.ofNat 8 w7, BitVec.ofInt 8 u.compensation, _, BitVec.ofNat 8 u.manual.time,
      BitVec.ofNat 8 (u.manual.time / 256), BitVec.ofNat 8 (u.manual.time / 65536), BitVec.ofNat 8 u.manual.iris,
      BitVec.ofNat 8 u.manual.gain] = _
    simp (disch := omega) only [exposureParams, mode, Option.bind_eq_bind, Option.bind_some, toNat_ofNat_byte, toInt_s8,
      nat24_u24]
    refine when_eq_some.mpr ⟨?_, by rw [← table]⟩
    simp [Settings.inRange, *]

theorem stabParams_eq_some {p : Bytes} {on : Bool} {threshold : Nat} : stabParams p = some (on, threshold) ↔
    threshold ≤ 32767 ∧ p = flag on ++ u16 threshold := by
  constructor
  · intro h
    unfold stabParams at h
    split at h
    · simp only [Option.bind_eq_bind, Option.bind_eq_some_iff, when_eq_some, Prod.mk.injEq] at h
      obtain ⟨_, enable, inRange, rfl, rfl⟩ := h
      exact ⟨of_decide_eq_true inRange, by simp [flag_of_flag? enable]⟩
    · cases h
  · rintro ⟨inRange, rfl⟩
    simp (disch := omega) only [flag, u16, List.cons_append, List.nil_append, stabParams, flag?_flag, Option.bind_eq_bind,
      Option.bind_some, nat16_u16]
    exact when_eq_some.mpr ⟨decide_eq_true inRange, rfl⟩

theorem releaseParams_eq_some {p : Bytes} {u : ReleaseSetup} : releaseParams p = some u ↔
    1 ≤ u.burstLimit ∧ u.burstLimit ≤ 99 ∧
    p = [match u.mode with | .single => 0#8 | .burst => 1#8] ++ u8 u.burstLimit ++ flag u.focusPriority ++
      flag u.afOnHalf ++ flag u.aeLockOnHalf ++ flag u.steadyWait := by
  constructor
  · intro h
    unfold releaseParams at h
    split at h
    · simp only [Option.bind_eq_bind, Option.bind_eq_some_iff, when_eq_some] at h
      obtain ⟨m, mode, _, priority, _, af, _, ae, _, wait, inRange, rfl⟩ := h
      obtain ⟨low, high⟩ := of_decide_eq_true inRange
      refine ⟨low, high, ?_⟩
      rw [releaseMode?_eq_some.mp mode, u8_toNat, flag_of_flag? priority, flag_of_flag? af, flag_of_flag? ae,
        flag_of_flag? wait]
      rfl
    · cases h
  · rintro ⟨low, high, rfl⟩
    have mode := releaseMode?_eq_some.mpr (Eq.refl (match u.mode with | .single => 0#8 | .burst => 1#8))
    simp (disch := omega) only [u8, flag, List.cons_append, List.nil_append, releaseParams, mode, flag?_flag,
      Option.bind_eq_bind, Option.bind_some, toNat_ofNat_byte]
    exact when_eq_some.mpr ⟨decide_eq_true ⟨low, high⟩, rfl⟩

/-! ### The slots and the store -/

theorem developedParams_eq_some {p : Bytes} {i : Fin 12} {size : Nat} : developedParams p = some (i, size) ↔
    1 ≤ size ∧ size ≤ 16777215 ∧ p = u8 i.val ++ u24 size := by
  constructor
  · intro h
    unfold developedParams at h
    split at h
    · simp only [Option.bind_eq_bind, Option.bind_eq_some_iff, when_eq_some, Prod.mk.injEq] at h
      obtain ⟨_, slot, inRange, rfl, rfl⟩ := h
      exact ⟨of_decide_eq_true inRange, nat24_le _ _ _, by rw [u8_of_fin? slot, u24_nat24]; rfl⟩
    · cases h
  · rintro ⟨low, high, rfl⟩
    have slot : fin? 12 (BitVec.ofNat 8 i.val).toNat = some i := finParam_byte i (by decide)
    simp (disch := omega) only [u8, u24, List.cons_append, List.nil_append, developedParams, slot, Option.bind_eq_bind,
      Option.bind_some, nat24_u24]
    exact when_eq_some.mpr ⟨decide_eq_true low, rfl⟩

theorem capacityParam_eq_some {p : Bytes} {n : Nat} : capacityParam p = some n ↔ n ≤ 16777215 ∧ p = u24 n := by
  constructor
  · intro h
    unfold capacityParam at h
    split at h <;> cases h
    exact ⟨nat24_le _ _ _, (u24_nat24 _ _ _).symm⟩
  · rintro ⟨fits, rfl⟩
    exact congrArg some (nat24_u24 fits)

theorem sizeParams_eq_some {p : Bytes} {v : Vector Nat 4} : sizeParams p = some v ↔
    (∀ r : Fin 4, v[r] ≤ 65535) ∧ p = u16 v[0] ++ u16 v[1] ++ u16 v[2] ++ u16 v[3] := by
  constructor
  · intro h
    unfold sizeParams at h
    split at h <;> cases h
    refine ⟨fun r => ?_, ?_⟩
    · fin_cases r <;> exact nat16_le _ _
    · simp
  · rintro ⟨fits, rfl⟩
    refine congrArg some (table_ext fun r => ?_)
    fin_cases r
    · exact nat16_u16 (fits 0)
    · exact nat16_u16 (fits 1)
    · exact nat16_u16 (fits 2)
    · exact nat16_u16 (fits 3)

/-! ### The parts of a program -/

/-- The values that the seven bytes of a point can hold. -/
def Point.holds (q : Point) : Prop :=
  -32768 ≤ q.evFrom ∧ q.evFrom ≤ 32767 ∧ q.settings.time ≤ 16777215 ∧ q.settings.iris ≤ 255 ∧ q.settings.gain ≤ 255

/-- The seven bytes of a point (R129). -/
def Point.sent (q : Point) : Bytes := s16 q.evFrom ++ u24 q.settings.time ++ u8 q.settings.iris ++ u8 q.settings.gain

theorem points?_of_sent : ∀ l : List Point, (∀ q ∈ l, q.holds) → points? (l.flatMap Point.sent) = some l
  | [], _ => rfl
  | ⟨ev, time, iris, gain⟩ :: l, held => by
    obtain ⟨low, high, fits, step, level⟩ := held _ List.mem_cons_self
    have rest := points?_of_sent l fun q hq => held q (List.mem_cons_of_mem _ hq)
    dsimp only at low high fits step level
    simp (disch := omega) only [List.flatMap_cons, Point.sent, s16, u16, u24, u8, List.cons_append, List.nil_append, points?,
      rest, Option.map_some, int16_s16, nat24_u24, toNat_ofNat_byte]

theorem sent_of_points? : ∀ (p : Bytes) (l : List Point), points? p = some l →
    (∀ q ∈ l, q.holds) ∧ p = l.flatMap Point.sent := by
  intro p
  induction p using points?.induct with
  | case1 =>
    rintro l ⟨⟩
    exact ⟨by simp, rfl⟩
  | case2 e0 e1 t0 t1 t2 i g rest ih =>
    intro l h
    simp only [points?, Option.map_eq_some_iff] at h
    obtain ⟨r, hr, rfl⟩ := h
    obtain ⟨held, rfl⟩ := ih r hr
    refine ⟨List.forall_mem_cons.mpr ⟨?_, held⟩, by simp [Point.sent]⟩
    exact ⟨(int16_bounds _ _).1, (int16_bounds _ _).2, nat24_le _ _ _, toNat_byte_le _, toNat_byte_le _⟩
  | case3 p notEmpty notPoint =>
    intro l h
    simp_all [points?]

theorem points?_eq_none : ∀ p : Bytes, points? p = none ↔ p.length % 7 ≠ 0 := by
  intro p
  induction p using points?.induct with
  | case1 => simp [points?]
  | case2 e0 e1 t0 t1 t2 i g rest ih =>
    simp only [points?, Option.map_eq_none_iff, ih, List.length_cons]
    omega
  | case3 p notEmpty notPoint =>
    match p with
    | [] => exact absurd rfl notEmpty
    | [_] | [_, _] | [_, _, _] | [_, _, _, _] | [_, _, _, _, _] | [_, _, _, _, _, _] => simp [points?]
    | e0 :: e1 :: t0 :: t1 :: t2 :: i :: g :: rest => exact (notPoint _ _ _ _ _ _ _ _ rfl).elim

theorem programParams_eq_some {p : Bytes} {u : ProgramPart} : programParams p = some u ↔
    u.total ≤ 255 ∧ u.first ≤ 255 ∧ (∀ q ∈ u.points, q.holds) ∧
      p = u8 u.total ++ u8 u.first ++ u.points.flatMap Point.sent := by
  constructor
  · intro h
    unfold programParams at h
    split at h
    · obtain ⟨l, points, rfl⟩ := Option.map_eq_some_iff.mp h
      obtain ⟨held, rfl⟩ := sent_of_points? _ _ points
      exact ⟨toNat_byte_le _, toNat_byte_le _, held, by simp⟩
    · cases h
  · rintro ⟨total, first, held, rfl⟩
    simp only [u8, List.cons_append, List.nil_append, programParams, points?_of_sent _ held, Option.map_some,
      toNat_ofNat_byte total, toNat_ofNat_byte first]

theorem programParams_eq_none {p : Bytes} : programParams p = none ↔ p.length < 2 ∨ (p.length - 2) % 7 ≠ 0 := by
  unfold programParams
  split
  next t f rest => simp [points?_eq_none]
  next short =>
    match p with
    | [] | [_] => simp
    | t :: f :: rest => exact absurd rfl (short t f rest)

/-- Settles O14. -/
theorem otherParametersOnTheWire : Obligations.OtherParametersOnTheWire := by
  unfold Obligations.OtherParametersOnTheWire
  exact ⟨fun _ _ => flagParam_eq_some, fun _ _ => meterParams_eq_some, fun _ _ => exposureParams_eq_some,
    fun _ _ _ => stabParams_eq_some, fun _ _ => releaseParams_eq_some, fun _ _ _ => developedParams_eq_some,
    fun _ _ => capacityParam_eq_some, fun _ _ => sizeParams_eq_some, fun _ _ => programParams_eq_some,
    fun _ => programParams_eq_none, fun _ _ => scopeParam_eq_some⟩

end Sys2Proof.Machine
end

