-- ==== Sys2Proof/Proofs/ControlLink.lean ====
section
/-! The control link (R175, R176, R182): frames turned away, dropped or taken, the answer frame, and its reading by the host. -/

namespace Sys2Proof.Machine

variable {s : State} {c : Instr} {code : Nat} {p frame : Bytes}

/-! ### The judgement of a frame (R175, steps 1 to 3) -/

theorem requestTransactionWellFormed_of_first {b : Byte} {rest : Bytes} (hb : b ≠ 0#8) :
    requestTransactionWellFormed (b :: rest) = true := decide_eq_true hb

/-- A frame of a wrong shape or with a wrong sum is not sound. -/
theorem judgeFrame_unsound (bad : frame.length < 3 ∨ 60 < (frame.getD 1 0#8).toNat ∨
    frame.length ≠ (frame.getD 1 0#8).toNat + 3 ∨ (frame.map (fun b => b.toNat)).sum % 256 ≠ 0) :
    judgeFrame frame = .malformed ∨ judgeFrame frame = .badCheck := by
  match frame with
  | [] | [_] => exact .inl rfl
  | code :: len :: rest =>
    unfold judgeFrame
    by_cases shape : (code :: len :: rest).length < 3 ∨ 60 < len.toNat ∨ (code :: len :: rest).length ≠ len.toNat + 3
    · exact .inl (if_pos shape)
    · have sum : frameSum (code :: len :: rest) ≠ 0#8 := by
        intro zero
        have total := frameSum_toNat (code :: len :: rest)
        rw [zero] at total
        simp only [List.getD_cons_succ, List.getD_cons_zero] at bad
        tauto
      exact .inr ((if_neg shape).trans (if_pos sum))

theorem linkAnswer_of_unsound (h : judgeFrame frame = .malformed ∨ judgeFrame frame = .badCheck) :
    s.linkAnswer frame = some .linkError := by
  rcases h with h | h <;> rw [State.linkAnswer, h]

theorem linkAnswer_requestFrame (hc : code < 256) (hp : p.length ≤ 60) : s.linkAnswer (requestFrame code p) =
    if code ∉ requestCodes then some .unknownRequest
    else if s.standby = true ∧ code ∉ standbyCodes then some .standby else none := by
  have standby : takenInStandby code = decide (code ∈ standbyCodes) := by simp [takenInStandby, standbyCodes]
  have known : (requestOfCode code p false).isNone = decide (code ∉ requestCodes) := by
    simp only [← requestOfCode_isSome code p false]
    cases requestOfCode code p false <;> rfl
  rw [State.linkAnswer, judgeFrame_requestFrame code p hc hp]
  simp [known, standby]

/-! ### Frames turned away in FREE -/

theorem exec_requestFrameRejected_of_free (free : s.link = .free) (hf : requestTransactionWellFormed frame = true) {r : Result}
    (h : s.linkAnswer frame = some r) :
    exec (.requestFrameRejected frame) s = .next { s with link := .answering ⟨r, []⟩ false } := by
  show execRequestFrameRejected frame s = _
  rw [execRequestFrameRejected, if_pos hf, free, h]
  rfl

/-- Settles O6. -/
theorem rejectedFrameIsAnsweredAtOnce : Obligations.RejectedFrameIsAnsweredAtOnce := by
  unfold Obligations.RejectedFrameIsAnsweredAtOnce
  rintro frame s free ⟨b, rest, rfl, hb⟩
  have wellFormed := requestTransactionWellFormed_of_first (rest := rest) hb
  refine ⟨fun bad => ?unsound, fun code p hc hp hframe => ⟨fun unknown => ?unknown, fun known waits asleep => ?standby⟩⟩
  case unsound => exact exec_requestFrameRejected_of_free free wellFormed (linkAnswer_of_unsound (judgeFrame_unsound bad))
  case unknown =>
    refine exec_requestFrameRejected_of_free free wellFormed ?_
    rw [hframe, linkAnswer_requestFrame hc hp, if_pos unknown]
  case standby =>
    refine exec_requestFrameRejected_of_free free wellFormed ?_
    rw [hframe, linkAnswer_requestFrame hc hp, if_neg (not_not_intro known), if_pos ⟨asleep, waits⟩]

/-! ### The answer (R175, R176) -/

/-- Settles O7. -/
theorem readTransactionSendsTheAnswer : Obligations.ReadTransactionSendsTheAnswer := by
  unfold Obligations.ReadTransactionSendsTheAnswer
  refine fun n s => ⟨fun a lost answering => ⟨fun whole => ?whole, fun part => ?part⟩, fun none => ?none⟩
  case whole =>
    refine ⟨freeBytes (n - (answerFrame a lost).length) s.freeCount, by simp [freeBytes], ?_⟩
    show execReadTransaction (n + 1) s = _
    simp only [execReadTransaction, answering, Nat.add_one_ne_zero, if_false, Nat.add_sub_cancel, if_pos whole,
      State.answerBytes, List.take_of_length_le whole]
    rfl
  case part =>
    show execReadTransaction (n + 1) s = _
    simp only [execReadTransaction, answering, Nat.add_one_ne_zero, if_false, Nat.add_sub_cancel, if_neg (Nat.not_le.mpr part),
      State.answerBytes, Nat.sub_eq_zero_of_le part.le, freeBytes, List.range_zero, List.map_nil, List.append_nil]
    rw [← answering]
    rfl
  case none =>
    show execReadTransaction (n + 1) s = _
    rcases none with free | ⟨a, lost, working⟩
    · simp only [execReadTransaction, free, Nat.add_one_ne_zero, if_false]
      rw [← free]
      rfl
    · simp only [execReadTransaction, working, Nat.add_one_ne_zero, if_false]
      rw [← working]
      rfl

theorem exec_ownerPlacesAnswer_of_working {a : Answer} {lost : Bool} (working : s.link = .working a lost) :
    exec .ownerPlacesAnswer s = .next { s.finishEntry with link := .answering a lost } := by
  show execOwnerPlacesAnswer s = _
  rw [execOwnerPlacesAnswer, working]
  rfl

/-- Settles O8. -/
theorem ownerPlacesTheAnswerFrame : Obligations.OwnerPlacesTheAnswerFrame := by
  unfold Obligations.OwnerPlacesTheAnswerFrame
  refine ⟨fun a lost s working => ⟨exec_ownerPlacesAnswer_of_working working, fun entered => ?_, ?_, fun _ => rfl⟩,
    fun a lost => ⟨_, rfl, ?_⟩⟩
  · rw [exec_ownerPlacesAnswer_of_working working, State.finishEntry_id entered]
  · rw [rdy, working]
  · rw [frameSum_toNat]
    exact congrArg BitVec.toNat (frameSum_check _)

/-! ### Requests taken, turned away in standby, and dropped (R176, R182) -/

/-- Every request goes to its owner through `request`, which takes those of R182 in standby. -/
theorem exec_of_request (h : c.request? = some (code, p)) :
    ∃ owner, ∀ s, exec c s = request (decide (code ∈ standbyCodes)) owner s := by
  cases c <;> cases h <;> exact ⟨_, fun _ => rfl⟩

theorem dropFrame_of_working {a : Answer} {lost : Bool} (working : s.link = .working a lost) :
    dropFrame s = { s with link := .working a true } := by
  rw [dropFrame, working]
  rfl

theorem dropFrame_of_answering {a : Answer} {lost : Bool} (answering : s.link = .answering a lost) :
    dropFrame s = { s with link := .answering a true } := by
  rw [dropFrame, answering]
  rfl

/-- A request, and any other frame with a first byte, is dropped while an answer is owed. -/
theorem exec_eq_dropFrame (owed : s.link ≠ .free) (h : (∃ code p, c.request? = some (code, p)) ∨
      ∃ b rest, b ≠ 0#8 ∧ (c = .requestFrameDropped (b :: rest) ∨ c = .requestFrameRejected (b :: rest))) :
    exec c s = .next (dropFrame s) := by
  rcases h with ⟨code, p, isRequest⟩ | ⟨b, rest, hb, rfl | rfl⟩
  · obtain ⟨owner, runs⟩ := exec_of_request isRequest
    rw [runs, request_dropped owed]
  · exact if_pos (requestTransactionWellFormed_of_first hb)
  · show execRequestFrameRejected (b :: rest) s = _
    rw [execRequestFrameRejected, if_pos (requestTransactionWellFormed_of_first hb)]
    split
    next free => exact absurd free owed
    · rfl
    · rfl

/-- Settles O9. -/
theorem requestIsTakenOnlyWhileFreeAndAwake : Obligations.RequestIsTakenOnlyWhileFreeAndAwake := by
  unfold Obligations.RequestIsTakenOnlyWhileFreeAndAwake
  refine ⟨fun c s frames => ⟨fun a lost working => ?working, fun a lost answering => ?answering⟩, fun s => rfl,
    fun c code p s isRequest free asleep waits => ?standby⟩
  case working => rw [exec_eq_dropFrame (by simp [working]) frames, dropFrame_of_working working]
  case answering => rw [exec_eq_dropFrame (by simp [answering]) frames, dropFrame_of_answering answering]
  case standby =>
    obtain ⟨owner, runs⟩ := exec_of_request isRequest
    rw [runs, request_standby free asleep (decide_eq_false waits)]
    rfl

/-! ### The frame of a request (R175) -/

/-- The parameters of a request that can be sent fit one frame. -/
theorem length_le_of_wellFormed (wellFormed : c.wellFormed = true) (h : c.request? = some (code, p)) : p.length ≤ 60 := by
  cases c <;> cases h <;> exact of_decide_eq_true wellFormed

theorem code_mem_of_request (h : c.request? = some (code, p)) : code ∈ requestCodes := by
  obtain ⟨b, named⟩ := requestOfCode_of_request c code p h
  rw [← requestOfCode_isSome code p b, named]
  rfl

theorem code_lt_of_mem (h : code ∈ requestCodes) : code < 256 := by
  have all : ∀ k ∈ requestCodes, k < 256 := by decide
  exact all code h

/-- Settles O11. -/
theorem decodeOfEncodedRequestIsTheRequest : Obligations.DecodeOfEncodedRequestIsTheRequest := by
  unfold Obligations.DecodeOfEncodedRequestIsTheRequest
  intro c code p wellFormed isRequest
  have known := code_mem_of_request isRequest
  obtain ⟨sensor, named⟩ := requestOfCode_of_request c code p isRequest
  refine ⟨known, sensor, requestFrame code p, by rw [encodeFrame, isRequest]; rfl, by simp [requestFrame], ?_⟩
  rw [decodeFrame, judgeFrame_requestFrame code p (code_lt_of_mem known) (length_le_of_wellFormed wellFormed isRequest)]
  exact named

end Sys2Proof.Machine
end

