-- ==== Sys2Proof/Proofs/BadParameters.lean ====
section
/-! Parameters that do not fit a request, in length or in value (R177, R8): BAD_PARAMETER, before any other check. -/

namespace Sys2Proof.Machine

variable {s : State} {c : Instr} {code : Nat} {p : Bytes}

/-! ### The length that each reading asks for (R177, log 5) -/

theorem noParams_length {u : Unit} (h : noParams p = some u) : p.length = 0 :=
  List.length_eq_zero_iff.mpr (List.isEmpty_iff.mp (when_eq_some.mp h).1)

theorem finParam_length {n : Nat} {i : Fin n} (h : finParam n p = some i) : p.length = 1 := by
  unfold finParam at h
  split at h
  · rfl
  · cases h

theorem flagParam_length {b : Bool} (h : flagParam p = some b) : p.length = 1 := by
  rw [flagParam_eq_some.mp h, List.length_singleton]

theorem axisParam_length {a : AxisId} (h : axisParam p = some a) : p.length = 1 := by
  rw [axisParam_eq_some.mp h, List.length_singleton]

theorem scopeParam_length {k : StandbyScope} (h : scopeParam p = some k) : p.length = 1 := by
  rw [scopeParam_eq_some.mp h, List.length_singleton]

theorem probeParams_length {q : Pair} (h : probeParams p = some q) : p.length = 2 := by
  obtain ⟨-, -, rfl⟩ := probeParams_eq_some.mp h
  rfl

theorem entryParam_length {e : Entry} (h : entryParam p = some e) : p.length = 14 := by
  obtain ⟨-, rfl⟩ := entryParam_eq_some.mp h
  rfl

theorem writeParams_length {x : Fin 32 × Entry} (h : writeParams p = some x) : p.length = 15 := by
  obtain ⟨rest, rfl, entry⟩ := writeParams_eq_some.mp (show writeParams p = some (x.1, x.2) from h)
  rw [List.length_cons, entryParam_length entry]

theorem moveParams_length {x : AxisId × Nat} (h : moveParams p = some x) : p.length = 2 ∨ p.length = 3 := by
  unfold moveParams at h
  split at h
  · exact .inl rfl
  · exact .inr rfl
  · cases h

theorem profileParams_length {x : AxisId × Profile} (h : profileParams p = some x) : p.length = 8 := by
  obtain ⟨-, b, -, rfl⟩ := profileParams_eq_some.mp (show profileParams p = some (x.1, x.2) from h)
  rfl

theorem sweepParams_length {w : SweepParams} (h : sweepParams p = some w) : p.length = 8 := by
  unfold sweepParams at h
  split at h
  · rfl
  · cases h

theorem contrastParam_length {v : Nat} (h : contrastParam p = some v) : p.length = 2 := by
  obtain ⟨-, rfl⟩ := contrastParam_eq_some.mp h
  rfl

theorem meterParams_length {u : MeterSetup} (h : meterParams p = some u) : p.length = 7 := by
  obtain ⟨-, -, -, rfl⟩ := meterParams_eq_some.mp h
  rfl

theorem exposureParams_length {u : ExposureSetup} (h : exposureParams p = some u) : p.length = 15 := by
  unfold exposureParams at h
  split at h
  · rfl
  · cases h

theorem programParams_length {u : ProgramPart} (h : programParams p = some u) :
    2 ≤ p.length ∧ (p.length - 2) % 7 = 0 := by
  by_contra wrong
  rw [programParams_eq_none.mpr (by omega)] at h
  cases h

theorem stabParams_length {x : Bool × Nat} (h : stabParams p = some x) : p.length = 3 := by
  obtain ⟨-, rfl⟩ := stabParams_eq_some.mp (show stabParams p = some (x.1, x.2) from h)
  rfl

theorem releaseParams_length {u : ReleaseSetup} (h : releaseParams p = some u) : p.length = 6 := by
  obtain ⟨-, -, rfl⟩ := releaseParams_eq_some.mp h
  rfl

theorem developedParams_length {x : Fin 12 × Nat} (h : developedParams p = some x) : p.length = 4 := by
  obtain ⟨-, -, rfl⟩ := developedParams_eq_some.mp (show developedParams p = some (x.1, x.2) from h)
  rfl

theorem capacityParam_length {n : Nat} (h : capacityParam p = some n) : p.length = 3 := by
  obtain ⟨-, rfl⟩ := capacityParam_eq_some.mp h
  rfl

theorem sizeParams_length {v : Vector Nat 4} (h : sizeParams p = some v) : p.length = 8 := by
  obtain ⟨-, rfl⟩ := sizeParams_eq_some.mp h
  rfl

/-! ### The answer -/

/-- A request that is taken and whose reading fails is BAD_PARAMETER, and no owner acts. -/
theorem request_badParameter {α : Type} {b : Bool} {read : Bytes → Option α} {owner : α → State → State × Answer}
    (free : s.link = .free) (taken : s.standby = false ∨ b = true) (h : read p = none) :
    request b (withParams read p owner) s = .next (s.answer ⟨.badParameter, []⟩) := by
  rw [request_taken free taken, withParams_none h]
  rfl

/-- A request of a wrong length is one whose reading fails. -/
theorem request_wrongLength {α : Type} {b : Bool} {read : Bytes → Option α} {owner : α → State → State × Answer}
    (free : s.link = .free) (taken : s.standby = false ∨ b = true) (wrong : lengthFits code p.length = false)
    (length : ∀ x, read p = some x → lengthFits code p.length = true) :
    request b (withParams read p owner) s = .next (s.answer ⟨.badParameter, []⟩) := by
  refine request_badParameter free taken (Option.eq_none_iff_forall_ne_some.mpr fun x hx => ?_)
  rw [length x hx] at wrong
  cases wrong

/-- Each request with a wrong length: the reading that its row asks for takes none but the lengths of the table. -/
theorem exec_of_wrongLength (isRequest : c.request? = some (code, p)) (free : s.link = .free)
    (taken : s.standby = false ∨ code ∈ standbyCodes) (wrong : lengthFits code p.length = false) :
    exec c s = .next (s.answer ⟨.badParameter, []⟩) := by
  have awake (waits : code ∉ standbyCodes) : s.standby = false ∨ false = true := .inl (taken.resolve_right waits)
  cases c <;> cases isRequest
  case mapRead | mapRetire | mapPurge | mapLock | setMode | slotStored | slotDiscard | slotRead =>
    exact request_wrongLength free (awake (by decide)) wrong fun _ h => by rw [finParam_length h]; rfl
  case meterEnable | meterReference =>
    exact request_wrongLength free (awake (by decide)) wrong fun _ h => by rw [flagParam_length h]; rfl
  case axisHome | axisStop | axisCollect =>
    exact request_wrongLength free (awake (by decide)) wrong fun _ h => by rw [axisParam_length h]; rfl
  case standby =>
    exact request_wrongLength free (awake (by decide)) wrong fun _ h => by rw [scopeParam_length h]; rfl
  case mapProbe =>
    exact request_wrongLength free (awake (by decide)) wrong fun _ h => by rw [probeParams_length h]; rfl
  case mapInstall =>
    exact request_wrongLength free (awake (by decide)) wrong fun _ h => by rw [entryParam_length h]; rfl
  case mapWrite =>
    exact request_wrongLength free (awake (by decide)) wrong fun _ h => by rw [writeParams_length h]; rfl
  case axisProfile =>
    exact request_wrongLength free (awake (by decide)) wrong fun _ h => by rw [profileParams_length h]; rfl
  case sweepStart | sweepPreset =>
    exact request_wrongLength free (awake (by decide)) wrong fun _ h => by rw [sweepParams_length h]; rfl
  case sweepContrast =>
    exact request_wrongLength free (awake (by decide)) wrong fun _ h => by rw [contrastParam_length h]; rfl
  case meterSetup =>
    exact request_wrongLength free (awake (by decide)) wrong fun _ h => by rw [meterParams_length h]; rfl
  case exposureSetup =>
    exact request_wrongLength free (awake (by decide)) wrong fun _ h => by rw [exposureParams_length h]; rfl
  case stabSetup =>
    exact request_wrongLength free (awake (by decide)) wrong fun _ h => by rw [stabParams_length h]; rfl
  case releaseSetup =>
    exact request_wrongLength free (awake (by decide)) wrong fun _ h => by rw [releaseParams_length h]; rfl
  case slotDeveloped =>
    exact request_wrongLength free (awake (by decide)) wrong fun _ h => by rw [developedParams_length h]; rfl
  case storeCapacity =>
    exact request_wrongLength free (awake (by decide)) wrong fun _ h => by rw [capacityParam_length h]; rfl
  case sizeTableWrite =>
    exact request_wrongLength free (awake (by decide)) wrong fun _ h => by rw [sizeParams_length h]; rfl
  case sweepRead | meterStart | meterStop | meterRead | meterClear | aeLock | aeUnlock | exposureRead | stabRead | shoot |
      releaseRead | clear =>
    exact request_wrongLength free (awake (by decide)) wrong fun _ h => by rw [noParams_length h]; rfl
  case axisMove =>
    exact request_wrongLength free (awake (by decide)) wrong fun _ h => by simpa [lengthFits] using moveParams_length h
  case programWrite =>
    exact request_wrongLength free (awake (by decide)) wrong fun _ h => by simpa [lengthFits] using programParams_length h
  case axisRead => exact request_wrongLength free (.inr rfl) wrong fun _ h => by rw [axisParam_length h]; rfl
  case mapStatus | readLens | status | wake =>
    exact request_wrongLength free (.inr rfl) wrong fun _ h => by rw [noParams_length h]; rfl

/-- Settles O10. -/
theorem wrongLengthOrValueIsABadParameter : Obligations.WrongLengthOrValueIsABadParameter := by
  unfold Obligations.WrongLengthOrValueIsABadParameter
  refine ⟨fun c code p s isRequest free taken wrong => exec_of_wrongLength isRequest free taken wrong, ?_⟩
  intro s p sensor bad free isBad
  refine ⟨fun h => (isBad _).mpr (request_badParameter free (.inr rfl) h), fun awake => ?_⟩
  have unread {α : Type} {read : Bytes → Option α} {owner : α → State → State × Answer} (h : read p = none) :
      request false (withParams read p owner) s = .next (s.answer ⟨.badParameter, []⟩) :=
    request_badParameter free (.inl awake) h
  simp only [isBad]
  exact ⟨fun h => ⟨unread h, unread h⟩, unread, unread, unread, unread, unread, unread,
    fun h => ⟨unread h, unread h, unread h⟩, unread, unread, fun h => ⟨unread h, unread h⟩, unread, unread,
    fun h => ⟨unread h, unread h⟩, unread, unread, unread, unread, fun h => ⟨unread h, unread h, unread h⟩, unread, unread,
    unread, unread⟩

end Sys2Proof.Machine
end

