-- ==== Sys2Proof/Proofs/MapUpdates.lean ====
section
/-! The map's updates on arrival (01): applied at once (R11 to R14, R21), put in the queue or refused by it (R17), and which
updates a pin holds (R18). -/

namespace Sys2Proof.Machine

variable {s : State} {m : LensMap} {c : Instr} {u : Update}

/-! ### What applying an update comes to -/

theorem LensMap.apply_write_of_noConflict {i : Fin 32} {e : Entry}
    (none : ∀ j : Fin 32, j ≠ i → e.conflicts m.entries[j] = false) :
    m.apply (.write i e) = .ok ({ m with entries := put m.entries i e }, [(i, e.valid)], []) := by
  have noConflict : m.writeConflict i e = .none := LensMap.find_eq_none.mpr fun j => by
    by_cases other : j = i
    · simp [other]
    · simpa [other] using none j other
  simp only [LensMap.apply, noConflict]

theorem LensMap.apply_write_of_conflict {i j : Fin 32} {e : Entry} (other : j ≠ i) (conflict : e.conflicts m.entries[j] = true)
    (lowest : ∀ k : Fin 32, k < j → k ≠ i → e.conflicts m.entries[k] = false) :
    m.apply (.write i e) = .error j := by
  have found : m.writeConflict i e = some j := by
    refine LensMap.find_eq_some ?_ fun k below => ?_
    · simp only [other, ne_eq, not_false_eq_true, decide_true, Bool.true_and, conflict]
    · by_cases written : k = i
      · simp [written]
      · simpa [written] using lowest k below written
  simp only [LensMap.apply, found]

theorem LensMap.apply_install_of_noConflict {e : Entry}
    (none : ∀ j : Fin 32, ({ e with valid := true } : Entry).conflicts m.entries[j] = false) :
    m.apply (.install e) = .ok ({ m with
      entries := put m.entries m.choosePlace { e with valid := true }
      cursor := m.nextCursor
      lastInstall := some m.choosePlace }, [(m.choosePlace, true)], u8 m.choosePlace.val) := by
  have noConflict : m.installConflict e = .none := LensMap.find_eq_none.mpr none
  simp only [LensMap.apply, noConflict]

theorem LensMap.apply_install_of_conflict {e : Entry} {j : Fin 32}
    (conflict : ({ e with valid := true } : Entry).conflicts m.entries[j] = true)
    (lowest : ∀ k : Fin 32, k < j → ({ e with valid := true } : Entry).conflicts m.entries[k] = false) :
    m.apply (.install e) = .error j := by
  have found : m.installConflict e = some j := LensMap.find_eq_some conflict lowest
  simp only [LensMap.apply, found]

theorem LensMap.apply_retire_of_valid {i : Fin 32} (valid : (m.entries[i]).valid = true) :
    m.apply (.retire i) = .ok ({ m with entries := put m.entries i (m.entries[i]).retired }, [(i, false)], []) :=
  if_pos valid

theorem LensMap.apply_retire_of_invalid {i : Fin 32} (invalid : (m.entries[i]).valid = false) :
    m.apply (.retire i) = .ok (m, [], []) :=
  if_neg (Bool.eq_false_iff.mp invalid)

/-- The lowest invalid place at or above the lock count (R6). -/
theorem LensMap.freePlace_eq_some {k : Fin 32} (unlocked : m.lockCount ≤ k.val) (invalid : (m.entries[k]).valid = false)
    (lowest : ∀ j : Fin 32, m.lockCount ≤ j.val → j < k → (m.entries[j]).valid = true) : m.freePlace = some k := by
  refine LensMap.find_eq_some ?_ fun j below => ?_
  · simp only [unlocked, invalid, decide_true, Bool.not_false, Bool.and_true]
  · by_cases locked : m.lockCount ≤ j.val
    · simp only [lowest j locked below, Bool.not_true, Bool.and_false]
    · simp [locked]

theorem LensMap.freePlace_eq_none (valid : ∀ j : Fin 32, m.lockCount ≤ j.val → (m.entries[j]).valid = true) :
    m.freePlace = none := by
  refine LensMap.find_eq_none.mpr fun j => ?_
  by_cases locked : m.lockCount ≤ j.val
  · simp only [valid j locked, Bool.not_true, Bool.and_false]
  · simp [locked]

/-- The cursor goes one place down, or from the lock count to 31 (R7). -/
theorem LensMap.cursorDown_val (m : LensMap) :
    m.cursorDown.val = if m.cursor.val = m.lockCount then 31 else m.cursor.val - 1 := by
  unfold LensMap.cursorDown
  split <;> rfl

theorem LensMap.mem_purgeList {i : Fin 32} {context : Nat} :
    i ∈ m.purgeList context ↔ (m.entries[i]).purgedBy context = true := by
  simp [LensMap.purgeList]

/-! ### An update that arrives (R17) -/

/-- The requests that carry an update hand it to the map. -/
theorem exec_update (carries : updateOf c = some u) (ready : s.ready) :
    exec c s = .next ((takeUpdate u s).1.answer (takeUpdate u s).2) := by
  unfold updateOf at carries
  split at carries
  case h_5 => cases carries
  all_goals
    obtain ⟨x, read, rfl⟩ := Option.map_eq_some_iff.mp carries
    exact request_withParams_some ready read

theorem exec_update_applied (carries : updateOf c = some u) (ready : s.ready) (empty : s.map.queue = [])
    (free : s.map.holds s.resolver u = false) {r : Report} {data : Bytes} (applied : s.map.apply u = .ok (m, r, data)) :
    exec c s = .next (((s.setMap m).postReports (reportOf r)).answer ⟨.done, data⟩) := by
  rw [exec_update carries ready]
  simp only [takeUpdate, empty, free, applied, if_true, Bool.false_eq_true, if_false, done]

theorem exec_update_duplicate (carries : updateOf c = some u) (ready : s.ready) (empty : s.map.queue = [])
    (free : s.map.holds s.resolver u = false) {j : Fin 32} (refused : s.map.apply u = .error j) :
    exec c s = .next (s.answer ⟨.duplicateKey, u8 j.val⟩) := by
  rw [exec_update carries ready]
  simp only [takeUpdate, empty, free, refused, if_true, Bool.false_eq_true, if_false]

theorem updateOf_mapWrite {p : Bytes} {i : Fin 32} {e : Entry} (read : writeParams p = some (i, e)) :
    updateOf (.mapWrite p) = some (.write i e) := by
  simp only [updateOf, read, Option.map_some]

theorem updateOf_mapInstall {p : Bytes} {e : Entry} (read : entryParam p = some e) :
    updateOf (.mapInstall p) = some (.install e) := by
  simp only [updateOf, read, Option.map_some]

theorem updateOf_mapRetire {p : Bytes} {i : Fin 32} (read : finParam 32 p = some i) :
    updateOf (.mapRetire p) = some (.retire i) := by
  simp only [updateOf, read, Option.map_some]

theorem updateOf_mapPurge {p : Bytes} {context : Fin 16} (read : finParam 16 p = some context) :
    updateOf (.mapPurge p) = some (.purge context.val) := by
  simp only [updateOf, read, Option.map_some]

/-- Settles O17. -/
theorem writeAndRetireAppliedAtOnce : Obligations.WriteAndRetireAppliedAtOnce := by
  unfold Obligations.WriteAndRetireAppliedAtOnce
  intro s i p ready empty
  refine ⟨fun e read free => ⟨fun noConflict => ?written, fun j other conflict lowest => ?duplicate⟩,
    fun read free => ⟨fun valid => ?retired, fun invalid => ?unchanged⟩⟩
  case written =>
    exact exec_update_applied (updateOf_mapWrite read) ready empty free (LensMap.apply_write_of_noConflict noConflict)
  case duplicate =>
    exact exec_update_duplicate (updateOf_mapWrite read) ready empty free
      (LensMap.apply_write_of_conflict other conflict lowest)
  case retired =>
    exact exec_update_applied (updateOf_mapRetire read) ready empty free (LensMap.apply_retire_of_valid valid)
  case unchanged =>
    rw [exec_update_applied (updateOf_mapRetire read) ready empty free (LensMap.apply_retire_of_invalid invalid)]
    simp only [reportOf, List.isEmpty_nil, if_true, State.postReports, List.append_nil, State.setMap, State.setHandoffs]

/-- Settles O18. -/
theorem installAndPurgeAppliedAtOnce : Obligations.InstallAndPurgeAppliedAtOnce := by
  unfold Obligations.InstallAndPurgeAppliedAtOnce
  intro s p ready empty
  refine ⟨fun e read free => ⟨fun noConflict => ?installed, fun j conflict lowest => ?duplicate⟩,
    fun c read free retired isPurged => ?purged⟩
  case installed =>
    have run := exec_update_applied (updateOf_mapInstall read) ready empty free
      (LensMap.apply_install_of_noConflict noConflict)
    refine ⟨fun k unlocked invalid lowest => ?freePlace, fun valid => ⟨s.map.cursorDown, s.map.cursorDown_val, ?cursor⟩⟩
    case freePlace =>
      have place := LensMap.freePlace_eq_some unlocked invalid lowest
      simp only [LensMap.choosePlace, LensMap.nextCursor, place, Option.getD_some] at run
      exact run
    case cursor =>
      have place := LensMap.freePlace_eq_none valid
      simp only [LensMap.choosePlace, LensMap.nextCursor, place, Option.getD_none] at run
      exact run
  case duplicate =>
    exact exec_update_duplicate (updateOf_mapInstall read) ready empty free
      (LensMap.apply_install_of_conflict conflict lowest)
  case purged =>
    have isPurgeList : retired = s.map.purgeList c.val := isPurged
    refine ⟨mapTable (fun e => if e.purgedBy c.val then e.retired else e) s.map.entries, fun i => ?entries, ?run⟩
    case entries =>
      rw [mapTable_get, isPurgeList]
      exact (if_congr LensMap.mem_purgeList rfl rfl).symm
    case run =>
      rw [isPurgeList, exec_update_applied (updateOf_mapPurge read) ready empty free rfl]
      simp only [reportOf, List.isEmpty_iff, List.map_eq_nil_iff]
      rfl

/-! ### The queue (R17) -/

/-- Settles O19. -/
theorem updatesWaitInTheQueue : Obligations.UpdatesWaitInTheQueue := by
  unfold Obligations.UpdatesWaitInTheQueue
  intro c u s carries ready
  rw [exec_update carries ready]
  refine ⟨fun empty held => ?held, fun waiting room => ?waits, fun full => ?full⟩
  case held =>
    rw [takeUpdate, if_pos empty, if_pos held]
    rfl
  case waits =>
    have notFull : ¬ Config.queueLimit ≤ s.map.queue.length := Nat.not_le.mpr room
    rw [takeUpdate, if_neg waiting, if_neg notFull]
    rfl
  case full =>
    have waiting : s.map.queue ≠ [] := fun empty => by simp [empty] at full
    have atLimit : Config.queueLimit ≤ s.map.queue.length := full
    rw [takeUpdate, if_neg waiting, if_pos atLimit]
    rfl

/-! ### What a pin holds (R18) -/

theorem Resolver.pinned_iff {r : Resolver} : r.pinned = true ↔ (r.slotPin = true ∨ r.sweepPin = true) := by
  rw [Resolver.pinned, Bool.or_eq_true]

theorem Resolver.pinned_eq_false {r : Resolver} (slot : r.slotPin = false) (sweep : r.sweepPin = false) :
    r.pinned = false := by
  rw [Resolver.pinned, slot, sweep, Bool.or_false]

/-- While the record is pinned, an update is held exactly if it touches the pinned entry. -/
theorem LensMap.holds_of_pinned {r : Resolver} (pinned : r.slotPin = true ∨ r.sweepPin = true) (u : Update) :
    m.holds r u = m.touches r.record u := by
  rw [LensMap.holds, Resolver.pinned_iff.mpr pinned, Bool.true_and]

/-- Settles O20. -/
theorem pinHoldsTheUpdatesThatTouchItsEntry : Obligations.PinHoldsTheUpdatesThatTouchItsEntry := by
  unfold Obligations.PinHoldsTheUpdatesThatTouchItsEntry
  intro m r
  refine ⟨fun slot sweep u => ?unpinned, fun i q pinned source pair => ?pinned⟩
  case unpinned => rw [LensMap.holds, Resolver.pinned_eq_false slot sweep, Bool.false_and]
  case pinned =>
    simp only [LensMap.holds_of_pinned pinned]
    refine ⟨fun j e => ?write, fun j => ?retire, fun c => ?purge, fun e => ?install⟩
    case write =>
      simp only [LensMap.touches, source, pair, Bool.or_eq_true, decide_eq_true_eq, Option.some.injEq, eq_comm (a := i),
        Entry.matchesPair_iff]
    case retire => simp only [LensMap.touches, source, decide_eq_true_eq, Option.some.injEq, eq_comm (a := i)]
    case purge => simp only [LensMap.touches, source, Bool.and_eq_true, decide_eq_true_eq, Bool.not_eq_true']
    case install =>
      simp only [LensMap.touches, source, pair, Bool.or_eq_true, decide_eq_true_eq, Option.some.injEq, eq_comm (a := i),
        Entry.matchesPair_iff, true_and]

end Sys2Proof.Machine
end

