-- ==== Sys2Proof/Proofs/MapDrain.lean ====
section
/-! The drain of the map's queue (R19 to R21, R35) and MAP_LOCK, which starts one (R15). -/

namespace Sys2Proof.Machine

variable {s : State} {m : LensMap} {u : Update} {rest : List Update}

/-! ### The map examines its head -/

theorem LensMap.examineHead_of_held {r : Resolver} (queue : m.queue = u :: rest) (held : m.holds r u = true) :
    m.examineHead r = none := by
  simp only [LensMap.examineHead, queue, held, if_true]

theorem LensMap.examineHead_of_applied {r : Resolver} {n : LensMap} {report : Report} {data : Bytes}
    (queue : m.queue = u :: rest) (free : m.holds r u = false) (applied : m.apply u = .ok (n, report, data)) :
    m.examineHead r = some ({ n with queue := rest }, report) := by
  simp only [LensMap.examineHead, queue, free, applied, Bool.false_eq_true, if_false]

theorem LensMap.examineHead_of_refused {r : Resolver} {j : Fin 32} (queue : m.queue = u :: rest)
    (free : m.holds r u = false) (refused : m.apply u = .error j) : m.examineHead r =
      some ({ m with queue := rest, rejection := some (rejectionOf u j), rejectionUnread := true }, []) := by
  simp only [LensMap.examineHead, queue, free, refused, Bool.false_eq_true, if_false]

/-! ### The drain -/

/-- A report of nothing changed names no index, so it calls for nothing (R35). -/
theorem State.examine_nil (s : State) : s.examine [] = s := by
  unfold State.examine
  split
  · split <;> rfl
  · split <;> rfl

/-- The reports in flight are examined first, once (log 33). -/
theorem State.drained_takeReports (s : State) : s.takeReports.drained = s.drained := by
  rw [State.drained, State.takeReports_id s.takeReports_reports, State.map_of_aside s.takeReports_aside, State.drained]

/-- With no report in flight the drain examines the head for as often as updates wait. -/
theorem State.drained_of_noReports (noReports : s.handoffs.reports = []) : s.drained = s.drain s.map.queue.length := by
  rw [State.drained, State.takeReports_id noReports]

theorem State.drained_of_empty (noReports : s.handoffs.reports = []) (empty : s.map.queue = []) : s.drained = s := by
  rw [State.drained_of_noReports noReports, empty]
  rfl

theorem State.drained_of_stop (noReports : s.handoffs.reports = []) (queue : s.map.queue = u :: rest)
    (stop : s.map.examineHead s.resolver = none) : s.drained = s := by
  rw [State.drained_of_noReports noReports, queue, List.length_cons, State.drain, stop]

/-- The head goes, and the drain goes on with the rest after the report of its change is examined (R19, R21). -/
theorem State.drained_of_head {r : Report} (noReports : s.handoffs.reports = []) (queue : s.map.queue = u :: rest)
    (left : m.queue = rest) (head : s.map.examineHead s.resolver = some (m, r)) :
    s.drained = (({ s with map := m } : State).examine r).drained := by
  have noReports' : (({ s with map := m } : State).examine r).handoffs.reports = [] := by
    rw [State.examine_reports]
    exact noReports
  have queue' : (({ s with map := m } : State).examine r).map.queue = rest := by
    rw [State.map_of_aside (State.examine_aside _ r)]
    exact left
  rw [State.drained_of_noReports noReports', queue', State.drained_of_noReports noReports, queue, List.length_cons,
    State.drain, head]
  rfl

/-- The account of a dropped update, in the words of R20. -/
theorem rejectionOf_fields (u : Update) (j : Fin 32) : (rejectionOf u j).reason = .duplicateKey ∧
    (rejectionOf u j).conflicting = j ∧
    (∀ i e, u = .write i e → (rejectionOf u j).kind = .write ∧ (rejectionOf u j).index = some i ∧
      (rejectionOf u j).key = none) ∧
    (∀ e, u = .install e → (rejectionOf u j).kind = .install ∧ (rejectionOf u j).index = none ∧
      (rejectionOf u j).key = some ⟨e.context, e.band, e.global⟩) := by
  cases u <;> simp +contextual [rejectionOf]

theorem exec_queueDrain {n : Nat} (due : s.handoffs.drains = n + 1) : exec .queueDrain s =
    .next ({ s with handoffs := { s.handoffs with drains := n } } : State).drained.settleZero := by
  show execQueueDrain s = _
  rw [execQueueDrain, if_neg (by omega), due]
  rfl

/-- Settles O21. -/
theorem drainAppliesTheQueueInOrder : Obligations.DrainAppliesTheQueueInOrder := by
  unfold Obligations.DrainAppliesTheQueueInOrder
  refine ⟨fun n s due => exec_queueDrain due, fun s => ⟨s.drained_takeReports.symm, s.takeReports_reports,
    fun noReports => ⟨State.drained_of_empty noReports, fun u rest queue => ⟨fun held => ?held, fun free =>
      ⟨fun m r data applied => ?applied, fun j refused => ?refused⟩⟩⟩⟩⟩
  case held => exact State.drained_of_stop noReports queue (LensMap.examineHead_of_held queue held)
  case applied =>
    exact State.drained_of_head noReports queue rfl (LensMap.examineHead_of_applied queue free applied)
  case refused =>
    obtain ⟨reason, conflicting, ofWrite, ofInstall⟩ := rejectionOf_fields u j
    refine ⟨rejectionOf u j, reason, conflicting, ofWrite, ofInstall, ?_⟩
    rw [State.drained_of_head noReports queue rfl (LensMap.examineHead_of_refused queue free refused), State.examine_nil]

/-! ### MAP_LOCK (R15) -/

/-- Settles O22. -/
theorem mapLockSetsTheLockCount : Obligations.MapLockSetsTheLockCount := by
  unfold Obligations.MapLockSetsTheLockCount
  intro s count ready inRange
  exact request_withParams_some (owner := mapLockOwner) ready
    (finParam_byte (⟨count, Nat.lt_succ_of_le inRange⟩ : Fin 17) (by decide))

end Sys2Proof.Machine
end

