-- ==== Sys2Proof/Proofs/Resolution.lean ====
section
/-! The resolutions of the active lens record (02): what one does (R30 to R33, R37), the two changes of the optic context that
call for one (R26 to R28), and the reports that do (R35). -/

namespace Sys2Proof.Machine

variable {s : State} {source : MissSource}

/-! ### The wanted band (R30) -/

theorem State.zoomBand_of_homed {position : Nat} (known : s.zoom.position = some position)
    (homed : s.zoom.state ∈ [.idle, .waking, .moving, .settling]) : s.zoomBand = some (position / 25) := by
  have isHomed : s.zoom.state.homed = true := by
    simp only [List.mem_cons, List.not_mem_nil, or_false] at homed
    obtain h | h | h | h := homed <;> rw [h] <;> rfl
  rw [State.zoomBand, if_pos isHomed, known]
  rfl

theorem State.zoomBand_of_notHomed (notHomed : s.zoom.state ∈ [.unhomed, .homing, .fault]) : s.zoomBand = none := by
  have isNotHomed : s.zoom.state.homed = false := by
    simp only [List.mem_cons, List.not_mem_nil, or_false] at notHomed
    obtain h | h | h := notHomed <;> rw [h] <;> rfl
  rw [State.zoomBand, isNotHomed]
  rfl

theorem AxisState.ne_waitMap_of_mem {x : AxisState} {l : List AxisState} (among : x ∈ l) (without : .waitMap ∉ l) :
    x ≠ .waitMap := fun waits => without (waits ▸ among)

theorem State.wantedBand_of_homed {position : Nat} (known : s.zoom.position = some position)
    (homed : s.zoom.state ∈ [.idle, .waking, .moving, .settling]) : s.wantedBand = some (position / 25) := by
  rw [State.wantedBand, if_neg (AxisState.ne_waitMap_of_mem homed (by decide)), State.zoomBand_of_homed known homed]

theorem State.wantedBand_of_waiting {band : Nat} (waits : s.zoom.state = .waitMap)
    (waited : s.travel.bandWaited = some band) : s.wantedBand = some band := by
  rw [State.wantedBand, if_pos waits, waited]

theorem State.wantedBand_of_notHomed (notHomed : s.zoom.state ∈ [.unhomed, .homing, .fault]) : s.wantedBand = none := by
  rw [State.wantedBand, if_neg (AxisState.ne_waitMap_of_mem notHomed (by decide)), State.zoomBand_of_notHomed notHomed]

/-! ### A resolution (R30 to R33, R37) -/

/-- While the record is pinned a resolution is deferred (R37). -/
theorem State.resolve_of_pinned (pinned : s.resolver.slotPin = true ∨ s.resolver.sweepPin = true) :
    s.resolve source = { s with resolver := { s.resolver with deferred := true } } :=
  if_pos (Resolver.pinned_iff.mpr pinned)

/-- In standby no resolution is made (log 10). -/
theorem State.resolve_of_standby (unpinned : s.resolver.pinned = false) (standby : s.standby = true) :
    s.resolve source = s := by
  rw [State.resolve, if_neg (Bool.eq_false_iff.mp unpinned), if_pos standby]

theorem State.resolveHere_of_found {band : Nat} {i : Fin 32} (here : s.zoomBand = some band)
    (found : s.map.lookup ⟨s.resolver.context, band⟩ = some i) :
    s.resolveHere source = s.load i ⟨s.resolver.context, band⟩ := by
  simp only [State.resolveHere, here, State.resolveBand, found]

theorem State.resolveHere_of_missed {band : Nat} (here : s.zoomBand = some band)
    (missed : s.map.lookup ⟨s.resolver.context, band⟩ = none) :
    s.resolveHere source = s.writeMiss ⟨s.resolver.context, band⟩ source := by
  simp only [State.resolveHere, here, State.resolveBand, missed]

theorem State.resolveHere_of_notHomed (noBand : s.zoomBand = none) : s.resolveHere source = s.unresolve := by
  simp only [State.resolveHere, noBand]

/-- Settles O25. -/
theorem resolutionLoadsOrMisses : Obligations.ResolutionLoadsOrMisses := by
  unfold Obligations.ResolutionLoadsOrMisses
  intro s source
  refine ⟨State.resolve_of_pinned, fun slot sweep standby => State.resolve_of_standby (Resolver.pinned_eq_false slot sweep)
    standby, fun slot sweep awake noWait => ?_⟩
  rw [State.resolve_here awake (Resolver.pinned_eq_false slot sweep) noWait]
  refine ⟨fun position known homed => ⟨fun i found => ?loaded, fun missed => ?missed⟩, fun notHomed => ?notHomed⟩
  case loaded => exact State.resolveHere_of_found (State.zoomBand_of_homed known homed) found
  case missed =>
    rw [State.resolveHere_of_missed (State.zoomBand_of_homed known homed) missed, State.writeMiss_eq]
    rfl
  case notHomed => rw [State.resolveHere_of_notHomed (State.zoomBand_of_notHomed notHomed), State.unresolve_eq]

/-! ### The optic context (R26 to R28) -/

/-- The lines read and the sample kept, before the code is judged (R26). -/
theorem exec_accessorySample_ignored {a1 a0 : Bool}
    (ignored : senseCode a1 a0 ≠ s.resolver.lastSample ∨ senseCode a1 a0 = s.resolver.sensed) :
    exec (.accessorySample a1 a0) s = .next { s with
      pins := { s.pins with asense1 := a1, asense0 := a0 }
      resolver := { s.resolver with lastSample := senseCode a1 a0 } } := by
  have notTaken : ¬ (senseCode a1 a0 = s.resolver.lastSample ∧ senseCode a1 a0 ≠ s.resolver.sensed) := by tauto
  show execAccessorySample a1 a0 s = _
  unfold execAccessorySample
  exact if_neg notTaken

theorem exec_accessorySample_taken {a1 a0 : Bool} (agrees : senseCode a1 a0 = s.resolver.lastSample)
    (new : senseCode a1 a0 ≠ s.resolver.sensed) :
    exec (.accessorySample a1 a0) s = .next ((({ s with
      pins := { s.pins with asense1 := a1, asense0 := a0 }
      resolver := { s.resolver with sensed := senseCode a1 a0, lastSample := senseCode a1 a0 } } : State).takeCode
        (senseCode a1 a0)).settleZero) := by
  show execAccessorySample a1 a0 s = _
  unfold execAccessorySample
  exact if_pos ⟨agrees, new⟩

theorem State.takeCode_of_standby {c : Nat} (standby : s.standby = true) :
    s.takeCode c = { s with resolver := { s.resolver with accessory := c, pendingCode := none } } :=
  if_pos standby

theorem State.takeCode_of_pinned {c : Nat} (awake : s.standby = false)
    (pinned : s.resolver.slotPin = true ∨ s.resolver.sweepPin = true) :
    s.takeCode c = { s with resolver :=
      if c = s.resolver.accessory then { s.resolver with pendingCode := none }
      else { s.resolver with pendingCode := some c, deferred := true } } := by
  rw [State.takeCode, if_neg (Bool.eq_false_iff.mp awake), if_pos (Resolver.pinned_iff.mpr pinned)]
  split <;> rfl

theorem State.takeCode_of_unpinned {c : Nat} (awake : s.standby = false) (unpinned : s.resolver.pinned = false) :
    s.takeCode c = if c = s.resolver.accessory then s
      else ({ s with resolver := { s.resolver with accessory := c } } : State).resolve .context := by
  rw [State.takeCode, if_neg (Bool.eq_false_iff.mp awake), if_neg (Bool.eq_false_iff.mp unpinned)]
  rfl

/-- Settles O26. -/
theorem contextChangesByModeAndAccessory : Obligations.ContextChangesByModeAndAccessory := by
  unfold Obligations.ContextChangesByModeAndAccessory
  refine ⟨fun s m ready => ⟨fun pinned => ?modePinned, fun slot sweep => ⟨fun inForce => ?modeInForce,
    fun other => ?modeChanged⟩, fun b bad => request_withParams_none ready (finParam_eq_none_of_le bad)⟩,
    fun a1 a0 s c lines isCode isLines => ?accessory⟩
  case modePinned =>
    refine (request_withParams_some (owner := setModeOwner) ready (finParam_byte m (by decide))).trans ?_
    rw [setModeOwner, if_pos (Resolver.pinned_iff.mpr pinned)]
    rfl
  case modeInForce =>
    refine (request_withParams_some (owner := setModeOwner) ready (finParam_byte m (by decide))).trans ?_
    rw [setModeOwner, if_neg (Bool.eq_false_iff.mp (Resolver.pinned_eq_false slot sweep)), if_pos inForce]
    rfl
  case modeChanged =>
    refine (request_withParams_some (owner := setModeOwner) ready (finParam_byte m (by decide))).trans ?_
    rw [setModeOwner, if_neg (Bool.eq_false_iff.mp (Resolver.pinned_eq_false slot sweep)), if_neg other]
    rfl
  case accessory =>
    have isCode : c = senseCode a1 a0 := isCode
    subst isCode isLines
    refine ⟨exec_accessorySample_ignored, fun agrees new => ?_⟩
    rw [exec_accessorySample_taken agrees new]
    refine ⟨fun standby => ?standby, fun awake pinned => ?pinned, fun awake slot sweep => ?unpinned⟩
    case standby =>
      rw [State.takeCode_of_standby (by exact standby)]
    case pinned =>
      rw [State.takeCode_of_pinned (by exact awake) (by exact pinned)]
      exact ⟨fun inForce => by rw [if_pos (by exact inForce)], fun other => by rw [if_neg (by exact other)]⟩
    case unpinned =>
      rw [State.takeCode_of_unpinned (by exact awake) (by exact Resolver.pinned_eq_false slot sweep)]
      exact ⟨fun inForce => by rw [if_pos (by exact inForce)], fun other => by rw [if_neg (by exact other)]⟩

/-! ### Reports (R35) -/

theorem exec_updateReport {r : Report} {rest : List Report} (flight : s.handoffs.reports = r :: rest) :
    exec .updateReport s =
      .next (({ s with handoffs := { s.handoffs with reports := rest } } : State).examine r).settleZero := by
  show execUpdateReport s = _
  rw [execUpdateReport, flight]
  rfl

/-- With the record resolved, only a report of its source calls for a resolution. -/
theorem State.examine_of_resolved {i : Fin 32} (resolved : s.resolver.record.resolved = true)
    (from' : s.resolver.record.source = some i) (r : Report) :
    s.examine r = if r.any (fun x => decide (x.1 = i)) then s.resolve .update else s := by
  rw [State.examine, if_pos resolved, from']

/-- With the record unresolved, a report calls for a resolution if it names a valid entry of the wanted pair. -/
theorem State.examine_of_unresolved {band : Nat} (unresolved : s.resolver.record.resolved = false)
    (wanted : s.wantedBand = some band) (r : Report) :
    s.examine r = if s.reportMatches r ⟨s.resolver.context, band⟩ then s.resolve .update else s := by
  rw [State.examine, if_neg (Bool.eq_false_iff.mp unresolved), wanted]

theorem State.examine_of_noBand (unresolved : s.resolver.record.resolved = false) (noBand : s.wantedBand = none)
    (r : Report) : s.examine r = s := by
  rw [State.examine, if_neg (Bool.eq_false_iff.mp unresolved), noBand]

theorem State.reportMatches_iff {r : Report} {q : Pair} : s.reportMatches r q = true ↔
    ∃ j : Fin 32, (j, true) ∈ r ∧ (s.map.entries[j]).matchesPair q = true := by
  simp [State.reportMatches]

/-- Settles O27. -/
theorem updateReportIsExamined : Obligations.UpdateReportIsExamined := by
  unfold Obligations.UpdateReportIsExamined
  refine ⟨fun r rest s flight => exec_updateReport flight, fun s r => ⟨rfl, fun i resolved from' => ?resolved,
    fun unresolved => ⟨fun band pair wanted isPair => ?wanted, fun notHomed =>
      State.examine_of_noBand unresolved (State.wantedBand_of_notHomed notHomed) r⟩⟩⟩
  case resolved =>
    rw [State.examine_of_resolved resolved from']
    refine ⟨fun ⟨v, named⟩ => if_pos ?_, fun notNamed => if_neg ?_⟩
    · exact List.any_eq_true.mpr ⟨(i, v), named, decide_eq_true rfl⟩
    · rw [List.any_eq_true]
      rintro ⟨⟨j, v⟩, named, isSource⟩
      exact notNamed v (of_decide_eq_true isSource ▸ named)
  case wanted =>
    have isWanted : s.wantedBand = some band := by
      obtain ⟨position, known, homed, rfl⟩ | ⟨waits, waited⟩ := wanted
      · exact State.wantedBand_of_homed known homed
      · exact State.wantedBand_of_waiting waits waited
    have isPair : pair = ⟨s.resolver.context, band⟩ := isPair
    rw [State.examine_of_unresolved unresolved isWanted, isPair]
    refine ⟨fun found => if_pos (State.reportMatches_iff.mpr found), fun noneMatches => if_neg fun found => ?_⟩
    obtain ⟨j, named, matched⟩ := State.reportMatches_iff.mp found
    exact Bool.eq_false_iff.mp (noneMatches j named) matched

end Sys2Proof.Machine
end

