-- ==== Sys2Proof/Proofs/ReadingRequests.lean ====
section
/-! The requests that read state (R16, R40, R65, R102, R115, R134, R147, R163, R171, R179): each answers DONE with its data and
clears its own mark alone. -/

namespace Sys2Proof.Machine

variable {s : State}

/-! ### Tables in the order of their indexes -/

theorem toList_eq_map_finRange {α : Type} {n : Nat} (v : Vector α n) : v.toList = (List.finRange n).map fun i => v[i] := by
  refine List.ext_getElem (by simp) fun i _ _ => ?_
  simp

theorem toList_flatMap_finRange {α : Type} {n : Nat} (v : Vector α n) (f : α → Bytes) :
    v.toList.flatMap f = (List.finRange n).flatMap fun i => f v[i] := by
  rw [toList_eq_map_finRange, List.flatMap_map]

/-! ### The requests -/

theorem exec_mapStatus (link : s.link = .free) : exec (.mapStatus []) s = .next { s with
    map := { s.map with rejectionUnread := false }, link := .working ⟨.done, s.mapStatusData⟩ false } :=
  request_taken (owner := withParams noParams [] mapStatusOwner) link (.inr rfl)

theorem exec_readLens (link : s.link = .free) : exec (.readLens []) s = .next { s with
    resolver := { s.resolver with missUnread := false }, link := .working ⟨.done, s.resolver.bytes⟩ false } :=
  request_taken (owner := withParams noParams [] readLensOwner) link (.inr rfl)

theorem exec_axisRead {p : Bytes} {a : AxisId} (link : s.link = .free) (read : axisParam p = some a) :
    exec (.axisRead p) s = .next (s.answer ⟨.done, s.axisData a⟩) := by
  refine (request_taken (owner := withParams axisParam p axisReadOwner) link (.inr rfl)).trans ?_
  rw [withParams_some read]
  rfl

theorem exec_status (link : s.link = .free) : exec (.status []) s = .next (s.answer ⟨.done, s.statusData⟩) :=
  request_taken (owner := withParams noParams [] statusOwner) link (.inr rfl)

theorem exec_sweepRead (ready : s.ready) :
    exec (.sweepRead []) s = .next (s.answer ⟨.done, s.sweep.record.bytes⟩) :=
  request_ready (owner := withParams noParams [] sweepReadOwner) ready

theorem exec_exposureRead (ready : s.ready) :
    exec (.exposureRead []) s = .next (s.answer ⟨.done, s.exposure.bytes⟩) :=
  request_ready (owner := withParams noParams [] exposureReadOwner) ready

theorem exec_stabRead (ready : s.ready) : exec (.stabRead []) s = .next { s with
    stab := { s.stab with faultUnread := false }, link := .working ⟨.done, s.stab.bytes⟩ false } :=
  request_ready (owner := withParams noParams [] stabReadOwner) ready

theorem exec_releaseRead (ready : s.ready) : exec (.releaseRead []) s = .next { s with
    release := { s.release with burst := { s.release.burst with notice := false } }
    link := .working ⟨.done, s.release.bytes⟩ false } :=
  request_ready (owner := withParams noParams [] releaseReadOwner) ready

theorem exec_meterRead (ready : s.ready) : exec (.meterRead []) s = .next { s with
    meter := s.meter.markRead, link := .working ⟨.done, s.meter.bytes⟩ false } :=
  request_ready (owner := withParams noParams [] meterReadOwner) ready

theorem exec_slotRead (ready : s.ready) (i : Fin 12) : exec (.slotRead [BitVec.ofNat 8 i.val]) s = .next { s with
    release := { s.release with slots := s.release.slots.set i { s.release.slots[i] with notice := false } }
    link := .working ⟨.done, (s.release.slots[i]).bytes i⟩ false } :=
  request_withParams_some (owner := slotReadOwner) ready (finParam_byte i (by decide))

/-! ### The attention sources (R179) -/

theorem attentionSources_eq (s : State) : attentionSources s = [s.zoom.completion.pending, s.focus.completion.pending,
    s.iris.completion.pending, s.map.rejectionUnread, s.resolver.missUnread, s.sweep.record.awaiting, s.meter.notice,
    s.stab.faultUnread] ++ (List.finRange 12).map (fun i => (s.release.slots[i]).notice) ++ [s.release.burst.notice] := by
  rw [attentionSources, toList_eq_map_finRange, List.map_map]
  rfl

theorem AxisId.exists_iff {P : AxisId → Prop} : (∃ a, P a) ↔ P .zoom ∨ P .focus ∨ P .iris := by
  constructor
  · rintro ⟨a, h⟩
    cases a
    case zoom => exact .inl h
    case focus => exact .inr (.inl h)
    case iris => exact .inr (.inr h)
  · rintro (h | h | h) <;> exact ⟨_, h⟩

/-- ATTN is high exactly while a source is set. -/
theorem attn_iff (s : State) : attn s = true ↔ (∃ a : AxisId, (s.axis a).completion.pending = true) ∨
    s.map.rejectionUnread = true ∨ s.resolver.missUnread = true ∨ s.sweep.record.awaiting = true ∨
    s.meter.notice = true ∨ s.stab.faultUnread = true ∨ (∃ i : Fin 12, (s.release.slots[i]).notice = true) ∨
    s.release.burst.notice = true := by
  rw [attn, attentionSources_eq, AxisId.exists_iff]
  simp [State.axis, or_assoc]

theorem State.statusData_eq (s : State) : s.statusData =
    (attentionSources s).map (fun b => if b then 1#8 else 0#8) ++ [if s.standby then 1#8 else 0#8] := by
  rw [State.statusData, List.map_eq_flatMap]
  rfl

/-- A reading of the meter clears the fresh marks and the notice (R115). -/
theorem MeterUnit.markRead_eq (m : MeterUnit) : ∃ zones : Vector ZoneRecord 8,
    (∀ z : Fin 8, zones[z] = { m.zones[z] with fresh := false }) ∧ m.markRead = { m with zones := zones, notice := false } :=
  ⟨_, fun z => mapTable_get _ _ z, rfl⟩

end Sys2Proof.Machine
end

