-- ==== Sys2Proof/Proofs/ReadingLayouts.lean ====
section
/-! The layouts of the readings, item by item in the order of their rules (R16, R40, R65, R102, R115, R134, R147, R163, R171,
R177, R178), and the obligation on the readings. -/

namespace Sys2Proof.Machine

/-- The head-blocked item (R16) is the test of R18 on the head. -/
theorem State.headBlocked_iff (s : State) : s.headBlocked = true ↔
    ∃ u rest, s.map.queue = u :: rest ∧ s.map.holds s.resolver u = true := by
  unfold State.headBlocked
  cases queue : s.map.queue with
  | nil => simp
  | cons u rest => simp

theorem SweepCondition.bytes_eq (c : SweepCondition) :
    c.bytes = match c with | .reach v => u8 0 ++ u16 v | .peak v => u8 1 ++ u16 v := by
  cases c <;> rfl

theorem MeterUnit.bytes_zones (m : MeterUnit) : m.zones.toList.flatMap ZoneRecord.bytes =
    (List.finRange 8).flatMap fun z => u8 (m.zones[z]).result.status.code ++ optional 3 u24 (m.zones[z]).result.value ++
      flag (m.zones[z]).fresh ++ flag (m.zones[z]).overwritten :=
  toList_flatMap_finRange m.zones _

theorem ExposureSetup.bytes_weights (u : ExposureSetup) :
    u.weights.toList.flatMap u8 = (List.finRange 8).flatMap fun z => u8 u.weights[z] :=
  toList_flatMap_finRange u.weights _

theorem Release.bytes_slots (r : Release) : r.slots.toList.flatMap (fun t => u8 t.state.code ++ flag t.notice) =
    (List.finRange 12).flatMap fun i => u8 (r.slots[i]).state.code ++ flag (r.slots[i]).notice :=
  toList_flatMap_finRange r.slots _

theorem Release.bytes_sizeTable (r : Release) : r.sizeTable.toList.flatMap u16 =
    u16 r.sizeTable[0] ++ u16 r.sizeTable[1] ++ u16 r.sizeTable[2] ++ u16 r.sizeTable[3] := by
  rw [toList_flatMap_finRange]
  rfl

/-- The switch position's place in its list (R151). -/
theorem Release.position_code (r : Release) :
    r.position.code = if r.fullTaken then 2 else if r.halfTaken then 1 else 0 := by
  unfold Release.position
  split_ifs <;> rfl

theorem AeLock.code_eq (l : AeLock) : l.code = match l with | .none => 0 | .pending => 1 | .held _ _ => 2 := by
  cases l <;> rfl

/-- The lock's items carry a value only while it is HELD (R126, R134). -/
theorem AeLock.items {l : AeLock} {lockEv : Option Int} {lockMark : Option Bool}
    (held : match l with
      | .held ev uncorrected => lockEv = some ev ∧ lockMark = some uncorrected
      | .none | .pending => lockEv = Option.none ∧ lockMark = Option.none) : l.ev = lockEv ∧ l.uncorrected = lockMark := by
  cases l
  all_goals
    obtain ⟨rfl, rfl⟩ := held
    exact ⟨rfl, rfl⟩

/-- A FREE slot is its number and state alone (R163). -/
theorem Slot.bytes_of_noShot {v : Slot} (noShot : v.shot = none) (i : Fin 12) :
    v.bytes i = u8 i.val ++ u8 v.state.code := by
  rw [Slot.bytes, noShot]
  rfl

/-- Settles O29. -/
theorem readingsClearOnlyTheirMarks : Obligations.ReadingsClearOnlyTheirMarks := by
  unfold Obligations.ReadingsClearOnlyTheirMarks
  refine ⟨fun s link => ⟨exec_mapStatus link, exec_readLens link, fun p a read => exec_axisRead link read, ?status,
      fun awake => ⟨exec_sweepRead ⟨link, awake⟩, exec_exposureRead ⟨link, awake⟩, exec_stabRead ⟨link, awake⟩,
        exec_releaseRead ⟨link, awake⟩, ?meter, exec_slotRead ⟨link, awake⟩⟩⟩,
    fun s => ⟨attentionSources_eq s, attn_iff s⟩, fun n i b => ⟨rfl, rfl, rfl, rfl, rfl, rfl, rfl, ?flag⟩,
    fun α width item => ⟨rfl, fun x => rfl⟩,
    fun s key index rejection miss pair isKey isIndex isRejection isMiss isPair => ⟨fun blocked isBlocked => ?mapStatus,
      fun r f isFacts => ?readLens⟩,
    fun s a width limit place summary r isAxis isWidth isPlace isLimit isSummary => ?axisRead, fun w => ?sweepRead,
    fun m zone isZone => ?meterRead,
    fun e settings deficit solution lockEv lockMark isSettings isDeficit isSolution held => ?exposureRead, fun t => rfl,
    fun r slot isSlot => ?releaseRead, fun v i => ⟨fun noShot => Slot.bytes_of_noShot noShot i, fun x shot => ?slotRead⟩,
    ?choices⟩
  case status => rw [exec_status link, State.statusData_eq]
  case meter =>
    obtain ⟨zones, notFresh, isRead⟩ := s.meter.markRead_eq
    exact ⟨zones, notFresh, by rw [exec_meterRead ⟨link, awake⟩, isRead]⟩
  case flag => cases b <;> rfl
  case mapStatus =>
    have isBlocked : blocked = s.headBlocked := Bool.eq_iff_iff.mpr (isBlocked.trans s.headBlocked_iff.symm)
    subst isBlocked isMiss isRejection isIndex isKey
    rfl
  case readLens =>
    subst isFacts isMiss isPair isIndex
    rfl
  case axisRead =>
    subst isAxis isWidth isPlace isLimit isSummary
    cases a <;> rfl
  case sweepRead =>
    rw [SweepRecord.bytes, SweepParams.bytes, SweepCondition.bytes_eq] <;> rfl
  case meterRead =>
    subst isZone
    rw [MeterUnit.bytes, MeterUnit.bytes_zones]
    rfl
  case exposureRead =>
    obtain ⟨rfl, rfl⟩ := AeLock.items held
    subst isSettings isDeficit isSolution
    rw [ExposureUnit.bytes, AeLock.bytes, AeLock.code_eq, ExposureSetup.bytes, ExposureSetup.bytes_weights]
    rfl
  case releaseRead =>
    subst isSlot
    rw [Release.bytes, Release.bytes_slots, Release.bytes_sizeTable, Release.position_code]
    rfl
  case slotRead =>
    rw [Slot.bytes, shot]
    rfl
  case choices => decide

end Sys2Proof.Machine
end

