-- ==== Sys2Proof/Proofs/AxisRules.lean ====
section
/-! Rules for the record of an axis (03): what the operations around it leave alone, and its homing decision and its targets
written out case by case. -/

namespace Sys2Proof.Machine

variable {s : State} {a : AxisId} {r : AxisRecord}

/-! ### A record put in place, beside other operations -/

theorem State.axis_setAxis_same (s : State) (a : AxisId) (r : AxisRecord) : (s.setAxis a r).axis a = r := by
  cases a <;> rfl

theorem State.reportHoming_setAxis (s : State) (a : AxisId) (r : AxisRecord) :
    (s.setAxis a r).reportHoming a = (s.reportHoming a).setAxis a r := by
  cases a
  case zoom =>
    show (s.setAxis .zoom r).unresolve = s.unresolve.setAxis .zoom r
    rw [State.unresolve_eq, State.unresolve_eq]
    rfl
  case focus => rfl
  case iris => rfl

theorem State.reportHoming_axis (s : State) (a : AxisId) : (s.reportHoming a).axis a = s.axis a := by
  cases a
  case zoom =>
    show s.unresolve.axis .zoom = s.axis .zoom
    rw [State.unresolve_eq]
    rfl
  case focus => rfl
  case iris => rfl

theorem State.readHome_setAxis (s : State) (a : AxisId) (r : AxisRecord) (sensor : Bool) :
    (s.setAxis a r).readHome a sensor = (s.readHome a sensor).setAxis a r := by
  cases a <;> rfl

/-- A homing decision on a record just put in place (R52): the sensor line is read, and the record decides. -/
theorem State.homingDecision_setAxis (s : State) (a : AxisId) (r : AxisRecord) (sensor : Bool) :
    ((s.setAxis a r).readHome a sensor).homingDecision a sensor =
      (s.readHome a sensor).setAxis a (r.homingDecision (homeLimit a) sensor) := by
  rw [State.readHome_setAxis, State.homingDecision, State.axis_setAxis_same, State.setAxis_setAxis]

theorem State.dropOwed_eq (s : State) (a : AxisId) : s.dropOwed a =
    if a = .focus then { s with travel := { s.travel with owedMark := false, owed := 0 } } else s := by
  cases a <;> rfl

theorem State.dropOwed_axis (s : State) (a b : AxisId) : (s.dropOwed a).axis b = s.axis b := by
  cases a <;> cases b <;> rfl

/-! ### The homing decision (R52, R53, R60) -/

variable {limit : Nat} {sensor : Bool}

theorem homeLimit_pos (a : AxisId) : 0 < homeLimit a := by
  cases a <;> decide

theorem AxisRecord.unhome_eq (r : AxisRecord) : r.unhome = { r with
    state := .unhomed, position := none, target := none, mover := none, joined := none, stopPending := .none
    releaseAtRest := false, ending := .reached, stepTimer := none, wakeTimer := none, settleTimer := none
    holdTimer := r.holdAtRest } := by
  rw [AxisRecord.unhome, AxisRecord.startHold_eq]
  rfl

theorem AxisRecord.homingDecision_of_stop (stop : r.stopPending = .stop) :
    r.homingDecision limit sensor = r.unhome.post .stopped none none := by
  rw [AxisRecord.homingDecision, stop]

theorem AxisRecord.homingDecision_of_clear (clear : r.stopPending = .clear) :
    r.homingDecision limit sensor = r.unhome := by
  rw [AxisRecord.homingDecision, clear]

theorem AxisRecord.homingDecision_of_home (noStop : r.stopPending = .none) (home : sensor = true) :
    r.homingDecision limit sensor = r.foundHome := by
  rw [AxisRecord.homingDecision, noStop, home]
  rfl

theorem AxisRecord.homingDecision_of_limit (noStop : r.stopPending = .none) (away : sensor = false)
    (atLimit : limit ≤ r.homingCount) : r.homingDecision limit sensor = r.failHoming := by
  rw [AxisRecord.homingDecision, noStop, away]
  exact if_pos atLimit

theorem AxisRecord.homingDecision_of_step (noStop : r.stopPending = .none) (away : sensor = false)
    (below : r.homingCount < limit) : r.homingDecision limit sensor = r.homingStep := by
  rw [AxisRecord.homingDecision, noStop, away]
  exact if_neg (Nat.not_le.mpr below)

/-! ### The targets of host moves (R55, R56) -/

theorem AxisRecord.begin_host (r : AxisRecord) (target : Nat) : r.begin target .host = { r with
    target := some target, mover := some .host, joined := none, ending := .reached, holdTimer := none
    settleTimer := none } := by
  simp [AxisRecord.begin]

theorem AxisRecord.retarget_host (r : AxisRecord) (target : Nat) : r.retarget target .host = { r with
    target := some target, mover := some .host, joined := none, stopPending := .none, releaseAtRest := false } := by
  simp [AxisRecord.retarget]

theorem AxisRecord.settlingHome_iff : r.settlingHome = true ↔ r.state = .settling ∧ r.ending = .homed := by
  simp [AxisRecord.settlingHome]

/-! ### A move that ends at its position (R60, R72, R75) -/

theorem AxisRecord.settleHere_eq {p : Nat} (known : r.position = some p) (e : Ending) : r.settleHere e = { r with
    target := some p, stopPending := .none, ending := e, state := .settling, stepTimer := none, wakeTimer := none
    settleTimer := some r.profile.settle } := by
  rw [← known]
  rfl

theorem AxisRecord.haltHere_eq {p : Nat} (known : r.position = some p) (e : Ending) : r.haltHere e = { r with
    backlashRemaining := 0, target := some p, stopPending := .none, ending := e, state := .settling, stepTimer := none
    wakeTimer := none, settleTimer := some r.profile.settle } := by
  rw [← known]
  rfl

/-! ### A move starts (R55) -/

theorem State.startMove_of_atTarget (atTarget : (s.axis a).target = (s.axis a).position) :
    s.startMove a = s.setAxis a (s.axis a).settle := if_pos atTarget

theorem State.startMove_of_energized (away : (s.axis a).target ≠ (s.axis a).position)
    (energized : (s.axis a).hold = .energized) : s.startMove a = s.stepAxis a :=
  (if_neg away).trans (if_pos energized)

theorem State.startMove_of_released (away : (s.axis a).target ≠ (s.axis a).position)
    (released : (s.axis a).hold = .released) : s.startMove a = s.setAxis a ((s.axis a).wake .waking) :=
  (if_neg away).trans (if_neg (by rw [released]; decide))

end Sys2Proof.Machine
end

