-- ==== Sys2Proof/Proofs/Homing.lean ====
section
/-! Homing (03 §3.4): how AXIS_HOME starts it or is refused (R51), and its decisions (R52, R53, R60). -/

namespace Sys2Proof.Machine

variable {s : State} {a : AxisId} {p : Bytes} {sensor : Bool}

/-! ### The checks of AXIS_HOME (R51) -/

theorem State.homeRefusal_of_uncollected (uncollected : (s.axis a).completion.pending = true) :
    s.homeRefusal a = some .uncollected := if_pos uncollected

theorem State.homeRefusal_of_busy (collected : (s.axis a).completion.pending = false)
    (busy : (s.axis a).state ∉ [.unhomed, .idle, .fault] ∨ (s.axis a).ownership ≠ .none ∨
      (a = .zoom ∧ (s.resolver.slotPin = true ∨ s.resolver.sweepPin = true))) : s.homeRefusal a = some .busy := by
  rw [← AxisState.resting_iff, ← Resolver.pinned_iff] at busy
  unfold State.homeRefusal
  rw [if_neg (Bool.eq_false_iff.mp collected)]
  by_cases resting : (s.axis a).state.resting = true
  · have held := busy.resolve_left (not_not_intro resting)
    rw [if_neg (by simp [resting]), if_pos held]
  · rw [if_pos (by simpa using resting)]

theorem State.homeRefusal_of_idle (collected : (s.axis a).completion.pending = false)
    (resting : (s.axis a).state ∈ [.unhomed, .idle, .fault]) (free : (s.axis a).ownership = .none)
    (unpinned : a = .zoom → s.resolver.slotPin = false ∧ s.resolver.sweepPin = false) :
    s.homeRefusal a = if s.holdOff then some .holdOff else none := by
  have rests : (s.axis a).state.resting = true := AxisState.resting_iff.mpr resting
  have notHeld : ¬ ((s.axis a).ownership ≠ .none ∨ (a = .zoom ∧ s.resolver.pinned = true)) := by
    rintro (owned | ⟨isZoom, pinned⟩)
    · exact owned free
    · obtain ⟨slot, sweep⟩ := unpinned isZoom
      simp [Resolver.pinned_eq_false slot sweep] at pinned
  unfold State.homeRefusal
  rw [if_neg (Bool.eq_false_iff.mp collected), if_neg (by simp [rests]), if_neg notHeld]

theorem exec_axisHome_refused {code : Result} (read : axisParam p = some a) (ready : s.ready)
    (refused : s.homeRefusal a = some code) : exec (.axisHome p sensor) s = .next (s.answer ⟨code, []⟩) := by
  refine (request_withParams_some (owner := axisHomeOwner sensor) ready read).trans ?_
  rw [axisHomeOwner, refused]
  rfl

theorem exec_axisHome_started (read : axisParam p = some a) (ready : s.ready) (taken : s.homeRefusal a = none) :
    exec (.axisHome p sensor) s = .next ((s.beginHoming a sensor).settleZero.answer ⟨.started, []⟩) := by
  refine (request_withParams_some (owner := axisHomeOwner sensor) ready read).trans ?_
  rw [axisHomeOwner, taken]
  rfl

/-! ### The start of a homing -/

/-- RELEASED coils wake before the first decision (R51). -/
theorem State.beginHoming_of_released (released : (s.axis a).hold = .released) :
    s.beginHoming a sensor = (s.reportHoming a).setAxis a ((s.axis a).startHoming.wake .homing) := by
  rw [State.beginHoming, State.reportHoming_setAxis, State.axis_setAxis_same]
  exact (if_pos released).trans State.setAxis_setAxis

/-- ENERGIZED coils: the first decision is made at once (R51). -/
theorem State.beginHoming_of_energized (energized : (s.axis a).hold = .energized) :
    s.beginHoming a sensor = ((s.reportHoming a).readHome a sensor).setAxis a
      ((s.axis a).startHoming.homingDecision (homeLimit a) sensor) := by
  have notReleased : ¬ (s.axis a).startHoming.hold = .released := fun released => by
    have released : (s.axis a).hold = .released := released
    rw [energized] at released
    cases released
  rw [State.beginHoming, State.reportHoming_setAxis, State.axis_setAxis_same]
  exact (if_neg notReleased).trans (State.homingDecision_setAxis _ _ _ _)

/-- Settles O30. -/
theorem homingStartsOrIsRefused : Obligations.HomingStartsOrIsRefused := by
  unfold Obligations.HomingStartsOrIsRefused
  intro p sensor a s t r read ready isAxis isReported
  subst isAxis
  have reported : t = s.reportHoming a := by
    rw [isReported]
    cases a
    case zoom => exact (State.unresolve_eq s).symm
    case focus => rfl
    case iris => rfl
  subst reported
  refine ⟨fun uncollected => exec_axisHome_refused read ready (State.homeRefusal_of_uncollected uncollected),
    fun collected => ⟨fun busy => exec_axisHome_refused read ready (State.homeRefusal_of_busy collected busy),
      fun resting free unpinned => ?_⟩⟩
  have checked := State.homeRefusal_of_idle collected resting free unpinned
  refine ⟨fun heldOff => exec_axisHome_refused read ready (by rw [checked, heldOff]; rfl), fun open' noStop => ?_⟩
  have taken : s.homeRefusal a = none := by rw [checked, open']; rfl
  have startNoStop : (s.axis a).startHoming.stopPending = .none := noStop
  rw [exec_axisHome_started read ready taken]
  refine ⟨fun released => ?released, fun energized => ⟨fun home => ?found, fun away => ?step⟩⟩
  case released =>
    rw [State.beginHoming_of_released released]
    rfl
  case found =>
    subst home
    rw [State.beginHoming_of_energized energized, AxisRecord.homingDecision_of_home startNoStop rfl]
    rfl
  case step =>
    subst away
    rw [State.beginHoming_of_energized energized, AxisRecord.homingDecision_of_step startNoStop rfl (homeLimit_pos a)]
    rfl

/-! ### The decisions (R52, R53, R60) -/

/-- A due decision of a homing axis reads the sensor line, and the record decides. -/
theorem exec_homingDecision {c : Instr} {r : AxisRecord} (due : s.decisionDue c a sensor r)
    (homing : (s.axis a).state = .homing) : exec c s =
      .next ((s.readHome a sensor).setAxis a (r.homingDecision (homeLimit a) sensor)).settleZero := by
  obtain ⟨sameState, -, -⟩ := decisionDue_fields due
  have isHoming : ((s.setAxis a r).axis a).state = .homing := by rw [State.axis_setAxis_same, sameState, homing]
  rw [exec_of_decisionDue due, State.decideAxis, isHoming]
  exact congrArg (fun t : State => Host.Outcome.next t.settleZero) (State.homingDecision_setAxis s a r sensor)

/-- Settles O31. -/
theorem homingDecisionFindsHomeOrSteps : Obligations.HomingDecisionFindsHomeOrSteps := by
  unfold Obligations.HomingDecisionFindsHomeOrSteps
  intro c a sensor s t r due homing isRead
  subst isRead
  rw [exec_homingDecision due homing]
  refine ⟨fun stop => ?stop, fun clear => ?clear, fun noStop => ⟨fun home => ?found, fun away =>
    ⟨fun atLimit => ?failed, fun below => ?step⟩⟩⟩
  case stop =>
    rw [AxisRecord.homingDecision_of_stop stop, AxisRecord.unhome_eq]
    rfl
  case clear => rw [AxisRecord.homingDecision_of_clear clear, AxisRecord.unhome_eq]
  case found =>
    rw [AxisRecord.homingDecision_of_home noStop home]
    rfl
  case failed =>
    rw [AxisRecord.homingDecision_of_limit noStop away (by exact atLimit)]
    rfl
  case step =>
    rw [AxisRecord.homingDecision_of_step noStop away (by exact below)]
    rfl

end Sys2Proof.Machine
end

