-- ==== Sys2Proof/Proofs/HostMoves.lean ====
section
/-! Host moves (03 §3.5): the checks of AXIS_MOVE (R54), the move that passes them (R53, R55, R56, R81), and the decision point
that it comes to (R46, R49, R60, R69). -/

namespace Sys2Proof.Machine

variable {s : State} {a : AxisId} {p : Bytes} {target : Nat}

/-! ### The checks of AXIS_MOVE (R54) -/

theorem State.moveRefusal_of_notHomed (notHomed : (s.axis a).state ∈ [.unhomed, .homing]) :
    s.moveRefusal a target = some .notHomed := by
  rw [List.mem_pair] at notHomed
  exact if_pos notHomed

theorem State.moveRefusal_of_fault (fault : (s.axis a).state = .fault) : s.moveRefusal a target = some .axisFault := by
  simp [State.moveRefusal, fault]

/-- The checks that follow those of the state, for a homed axis. -/
theorem State.moveRefusal_of_homed (homed : (s.axis a).state ∈ [.idle, .waking, .moving, .waitMap, .settling]) :
    s.moveRefusal a target =
      if (s.axis a).completion.pending then some .uncollected
      else if (s.axis a).ownership ≠ .none then some .busy
      else if s.holdOff then some .holdOff
      else if a = .focus ∧ s.resolver.record.resolved = false then some .noLens
      else if a = .focus ∧ s.resolver.record.facts.within target = false then some .outOfLimits
      else if a = .zoom ∧ s.resolver.pinned then some .busy
      else none := by
  have known : ¬ ((s.axis a).state = .unhomed ∨ (s.axis a).state = .homing) := by
    rintro (h | h) <;> simp [h] at homed
  have noFault : (s.axis a).state ≠ .fault := fun h => by simp [h] at homed
  unfold State.moveRefusal
  rw [if_neg known, if_neg noFault]

theorem LensFacts.within_eq_false {f : LensFacts} : f.within target = false ↔ target < f.far ∨ f.near < target := by
  simp only [LensFacts.within, decide_eq_false_iff_not]
  omega

theorem exec_axisMove_refused {code : Result} (read : moveParams p = some (a, target)) (ready : s.ready)
    (refused : s.moveRefusal a target = some code) : exec (.axisMove p) s = .next (s.answer ⟨code, []⟩) := by
  refine (request_withParams_some (owner := axisMoveOwner) ready read).trans ?_
  simp only [axisMoveOwner, refused]
  rfl

theorem exec_axisMove_started (read : moveParams p = some (a, target)) (ready : s.ready) (may : s.mayMove a target) :
    exec (.axisMove p) s = .next ((s.hostMove a target).settleZero.answer ⟨.started, []⟩) := by
  refine (request_withParams_some (owner := axisMoveOwner) ready read).trans ?_
  simp only [axisMoveOwner, State.moveRefusal_none may]
  rfl

/-- Settles O32. -/
theorem moveIsRefusedInOrder : Obligations.MoveIsRefusedInOrder := by
  unfold Obligations.MoveIsRefusedInOrder
  intro p a target s r read ready isAxis
  subst isAxis
  refine ⟨fun notHomed => exec_axisMove_refused read ready (State.moveRefusal_of_notHomed notHomed),
    fun fault => exec_axisMove_refused read ready (State.moveRefusal_of_fault fault), fun homed => ?_⟩
  have checked := State.moveRefusal_of_homed (target := target) homed
  refine ⟨fun uncollected => ?uncollected, fun collected => ⟨fun owned => ?owned, fun free => ⟨fun heldOff => ?heldOff,
    fun noHoldOff => ⟨fun focus unresolved => ?noLens, fun focus resolved beyond => ?outOfLimits,
      fun zoom pinned => ?pinned⟩⟩⟩⟩
  all_goals refine exec_axisMove_refused read ready (checked.trans ?_)
  case uncollected => simp [uncollected]
  case owned => simp [collected, owned]
  case heldOff => simp [collected, free, heldOff]
  case noLens =>
    subst focus
    simp [-State.axis_focus, collected, free, noHoldOff, unresolved]
  case outOfLimits =>
    subst focus
    simp [-State.axis_focus, collected, free, noHoldOff, resolved, LensFacts.within_eq_false.mpr beyond]
  case pinned =>
    subst zoom
    simp [-State.axis_zoom, collected, free, noHoldOff, Resolver.pinned_iff.mpr pinned]

/-! ### A move that passes its checks (R53, R55, R56, R81) -/

/-- A moving axis takes the new target (R56). -/
theorem State.hostMove_of_moving (moving : (s.axis a).state ∈ [.waking, .moving]) :
    s.hostMove a target = (s.dropOwed a).setAxis a ((s.axis a).retarget target .host) := by
  rw [List.mem_pair] at moving
  unfold State.hostMove
  simp only [State.dropOwed_axis]
  obtain h | h := moving <;> rw [h]

/-- A ZOOM homing interrupted in its settle is handed on before the move begins (R53). -/
def State.handOnHoming (s : State) (a : AxisId) : State :=
  if a = .zoom ∧ s.zoom.settlingHome then s.homingDone .zoom else s

theorem State.handOnHoming_axis (s : State) (a : AxisId) : (s.handOnHoming a).axis a = s.axis a := by
  unfold State.handOnHoming
  split
  case isTrue h =>
    obtain ⟨-, settling⟩ := h
    refine State.resolve_axis (fun waits => ?_) a
    rw [(AxisRecord.settlingHome_iff.mp settling).1] at waits
    cases waits
  case isFalse => rfl

theorem State.hostMove_of_resting (resting : (s.axis a).state ∈ [.idle, .settling]) :
    s.hostMove a target =
      (((s.dropOwed a).handOnHoming a).setAxis a ((s.axis a).begin target .host)).startMove a := by
  have began : (s.dropOwed a).beginHostMove a target =
      (((s.dropOwed a).handOnHoming a).setAxis a ((s.axis a).begin target .host)).startMove a := by
    show (((s.dropOwed a).handOnHoming a).setAxis a
      ((((s.dropOwed a).handOnHoming a).axis a).begin target .host)).startMove a = _
    rw [State.handOnHoming_axis, State.dropOwed_axis]
  rw [List.mem_pair] at resting
  unfold State.hostMove
  simp only [State.dropOwed_axis]
  obtain h | h := resting <;> rw [h] <;> exact began

/-- What a beginning move does with the state around its axis: FOCUS gives up what it is owed, a settling ZOOM homing is
resolved (R53, R81). -/
theorem State.handOnHoming_dropOwed (s : State) (a : AxisId) : (s.dropOwed a).handOnHoming a =
    if a = .focus then { s with travel := { s.travel with owedMark := false, owed := 0 } }
    else if a = .zoom ∧ (s.axis a).state = .settling ∧ (s.axis a).ending = .homed then s.resolve .zoomStep else s := by
  cases a
  case zoom => simp only [State.dropOwed, State.handOnHoming, AxisRecord.settlingHome_iff]; rfl
  case focus => rfl
  case iris => rfl

/-- Settles O33. -/
theorem hostMoveBeginsOrRetargets : Obligations.HostMoveBeginsOrRetargets := by
  unfold Obligations.HostMoveBeginsOrRetargets
  intro p a target s t r b read ready may isAxis
  subst isAxis
  rw [exec_axisMove_started read ready may]
  refine ⟨fun moving isLeft => ?retargeted, fun resting isLeft isBegun => ?begun⟩
  case retargeted => rw [isLeft, State.hostMove_of_moving moving, AxisRecord.retarget_host, State.dropOwed_eq]
  case begun =>
    have left : t = (s.dropOwed a).handOnHoming a := isLeft.trans (State.handOnHoming_dropOwed s a).symm
    have begun : b = (s.axis a).begin target .host := isBegun.trans (AxisRecord.begin_host _ _).symm
    have targeted : b.target = some target := by rw [isBegun]
    have place : b.position = (s.axis a).position := by rw [isBegun]
    have coils : b.hold = (s.axis a).hold := by rw [isBegun]
    rw [State.hostMove_of_resting resting, ← left, ← begun]
    refine ⟨fun atTarget => ?settles, fun away energized => ?steps, fun away released => ?wakes⟩
    case settles =>
      rw [State.startMove_of_atTarget (by rw [State.axis_setAxis_same, targeted, place, atTarget]),
        State.axis_setAxis_same, State.setAxis_setAxis, isBegun]
      rfl
    case steps =>
      rw [State.startMove_of_energized (by rw [State.axis_setAxis_same, targeted, place]; exact away.symm)
        (by rw [State.axis_setAxis_same, coils, energized])]
    case wakes =>
      rw [State.startMove_of_released (by rw [State.axis_setAxis_same, targeted, place]; exact away.symm)
        (by rw [State.axis_setAxis_same, coils, released]), State.axis_setAxis_same, State.setAxis_setAxis, isBegun]
      rfl

/-! ### The decision point (R46, R49, R60, R69) -/

/-- A due decision of a moving axis is its decision point. -/
theorem exec_decisionPoint {c : Instr} {sensor : Bool} {r : AxisRecord} (due : s.decisionDue c a sensor r)
    (moving : (s.axis a).state ∈ [.waking, .moving]) :
    exec c s = .next ((s.setAxis a r).decisionPoint a).settleZero := by
  obtain ⟨sameState, -, -⟩ := decisionDue_fields due
  rw [← sameState, List.mem_pair] at moving
  rw [exec_of_decisionDue due, State.decideAxis, State.axis_setAxis_same]
  obtain h | h := moving <;> rw [h]

theorem State.decisionPoint_of_stop (stop : (s.axis a).stopPending = .stop) :
    s.decisionPoint a = s.setAxis a ((s.axis a).haltHere .stopped) := by
  simp only [State.decisionPoint, stop]

theorem State.decisionPoint_of_clear (clear : (s.axis a).stopPending = .clear) :
    s.decisionPoint a = (s.setAxis a { s.axis a with backlashRemaining := 0 }).clearAxisRest a := by
  simp only [State.decisionPoint, clear]

theorem State.decisionPoint_of_atTarget (noStop : (s.axis a).stopPending = .none)
    (atTarget : (s.axis a).target = (s.axis a).position) :
    s.decisionPoint a = s.setAxis a ({ s.axis a with backlashRemaining := 0 } : AxisRecord).settle := by
  simp only [State.decisionPoint, noStop, atTarget, if_true]

theorem State.decisionPoint_of_away (noStop : (s.axis a).stopPending = .none)
    (away : (s.axis a).target ≠ (s.axis a).position) : s.decisionPoint a = s.stepAxis a := by
  simp only [State.decisionPoint, noStop, away, if_false]

/-- Settles O34. -/
theorem decisionPointServesStopsThenSteps : Obligations.DecisionPointServesStopsThenSteps := by
  unfold Obligations.DecisionPointServesStopsThenSteps
  refine ⟨fun c a sensor s r due moving => exec_decisionPoint due moving, fun a s r isAxis => ?_⟩
  subst isAxis
  refine ⟨fun stop => State.decisionPoint_of_stop stop, fun clear => ⟨_, rfl, ?cleared⟩, fun noStop =>
    ⟨fun atTarget => State.decisionPoint_of_atTarget noStop atTarget,
      fun away => State.decisionPoint_of_away noStop away⟩⟩
  case cleared =>
    rw [State.decisionPoint_of_clear clear, State.clearAxisRest, State.axis_setAxis_same, AxisRecord.clearRest_eq,
      State.setAxis_setAxis]

end Sys2Proof.Machine
end

