-- ==== Sys2Proof/Proofs/Steps.lean ====
section
/-! Steps of a moving axis (R46, R47), and those of ZOOM at a band edge (R71 to R73). -/

namespace Sys2Proof.Machine

variable {s : State} {a : AxisId} {p q : Nat}

/-! ### The crossing lookup (R34) -/

theorem State.crossingLookup_of_permit {band : Nat} {i : Fin 32}
    (found : s.map.lookup ⟨s.resolver.context, band⟩ = some i) (permit : (s.map.entries[i]).drivePermit = true) :
    s.crossingLookup band = .permitted i := by
  unfold State.crossingLookup
  rw [found]
  exact if_pos permit

theorem State.crossingLookup_of_noPermit {band : Nat} {i : Fin 32}
    (found : s.map.lookup ⟨s.resolver.context, band⟩ = some i) (noPermit : (s.map.entries[i]).drivePermit = false) :
    s.crossingLookup band = .forbidden := by
  unfold State.crossingLookup
  rw [found]
  exact if_neg (Bool.eq_false_iff.mp noPermit)

theorem State.crossingLookup_of_missed {band : Nat} (missed : s.map.lookup ⟨s.resolver.context, band⟩ = none) :
    s.crossingLookup band = .missed := by
  unfold State.crossingLookup
  rw [missed]

/-! ### A step (R46, R47) -/

/-- A step toward a target lies in the needed direction. -/
theorem Direction.next_toward (p q : Nat) :
    (if p < q then Direction.awayFromHome else .towardHome).next p = if p < q then p + 1 else p - 1 := by
  split <;> rfl

theorem Direction.sign_toward (p q : Nat) :
    (if p < q then Direction.awayFromHome else .towardHome).sign = if p < q then 1 else -1 := by
  split <;> rfl

theorem AxisRecord.stepOn_of_backlash {r : AxisRecord} (due : 0 < r.reversed.backlashRemaining) :
    r.stepOn = r.reversed.backlashStep := if_pos due

theorem AxisRecord.stepOn_of_noBacklash {r : AxisRecord} (none : r.reversed.backlashRemaining = 0) :
    r.stepOn = r.reversed.countedStep := if_neg (Nat.not_lt.mpr none.le)

theorem State.stepAxis_of_backlash (due : 0 < (s.axis a).reversed.backlashRemaining) :
    s.stepAxis a = s.setAxis a (s.axis a).reversed.backlashStep := by
  cases a
  case zoom => exact if_pos due
  case focus => exact congrArg (s.setAxis .focus) (AxisRecord.stepOn_of_backlash due)
  case iris => exact congrArg (s.setAxis .iris) (AxisRecord.stepOn_of_backlash due)

/-- A counted step of ZOOM goes on only within its band (R71). -/
theorem State.zoomStepOn_of_counted {position : Nat} (none : s.zoom.reversed.backlashRemaining = 0)
    (known : s.zoom.reversed.position = some position) : s.zoomStepOn =
      if bandOf (s.zoom.reversed.lastDirection.next position) = bandOf position
      then s.setAxis .zoom s.zoom.reversed.countedStep
      else s.zoomCross s.zoom.reversed (bandOf (s.zoom.reversed.lastDirection.next position)) := by
  have noBacklash : ¬ 0 < s.zoom.reversed.backlashRemaining := Nat.not_lt.mpr none.le
  unfold State.zoomStepOn
  simp only [noBacklash, if_false, known, Option.getD_some]

theorem State.stepAxis_of_counted {position : Nat} (none : (s.axis a).reversed.backlashRemaining = 0)
    (known : (s.axis a).reversed.position = some position)
    (within : a = .zoom → bandOf ((s.axis a).reversed.lastDirection.next position) = bandOf position) :
    s.stepAxis a = s.setAxis a (s.axis a).reversed.countedStep := by
  cases a
  case zoom => exact (State.zoomStepOn_of_counted none known).trans (if_pos (within rfl))
  case focus => exact congrArg (s.setAxis .focus) (AxisRecord.stepOn_of_noBacklash none)
  case iris => exact congrArg (s.setAxis .iris) (AxisRecord.stepOn_of_noBacklash none)

/-- The record after any reversal, toward a target at another place (R47). -/
theorem AxisRecord.reversed_toward {r : AxisRecord} (known : r.position = some p) (targeted : r.target = some q)
    {d : Direction} (toward : d = if p < q then .awayFromHome else .towardHome) {backlash : Nat}
    (isBacklash : backlash = if d = r.lastDirection then r.backlashRemaining else r.profile.backlash) :
    r.reversed = { r with lastDirection := d, backlashRemaining := backlash } := by
  rw [AxisRecord.reversed_eq ((AxisRecord.needed_eq known targeted).trans toward.symm), isBacklash]

/-! ### The band edge (R71 to R73) -/

theorem State.zoomCross_of_permit {band : Nat} {i : Fin 32} {r : AxisRecord} (permitted : s.crossingLookup band = .permitted i) :
    s.zoomCross r band = (s.load i ⟨s.resolver.context, band⟩).setAxis .zoom r.countedStep := by
  simp only [State.zoomCross, permitted]

theorem State.zoomCross_of_forbidden {band : Nat} {r : AxisRecord} (forbidden : s.crossingLookup band = .forbidden) :
    s.zoomCross r band = s.setAxis .zoom { r.haltHere .bandForbidden with mover := some .host } := by
  simp only [State.zoomCross, forbidden]
  rfl

theorem State.zoomCross_of_missed {band : Nat} {r : AxisRecord} (missed : s.crossingLookup band = .missed) :
    s.zoomCross r band = { s with
      zoom := { r with state := .waitMap, stepTimer := none, wakeTimer := none, backlashRemaining := 0 }
      travel := { s.travel with refillTimer := true, bandWaited := some band, crossing := some r.lastDirection }
      resolver := { s.resolver with
        record := { s.resolver.record with resolved := false }
        miss := some ⟨s.resolver.context, band, .zoomStep⟩, missUnread := true }
      handoffs := { s.handoffs with
        stab := s.handoffs.stab ++ (if s.resolver.record.resolved then [.unresolved] else []) } } := by
  simp only [State.zoomCross, missed, State.writeMiss_eq]
  rfl

/-- Settles O35. -/
theorem stepTakesBacklashThenPositions : Obligations.StepTakesBacklashThenPositions := by
  unfold Obligations.StepTakesBacklashThenPositions
  intro a s p q next backlash d r known targeted _ toward isBacklash isNext isStepped
  have reversed := AxisRecord.reversed_toward known targeted toward isBacklash
  have stepped : (s.axis a).reversed.stepped = r := by
    rw [isStepped, reversed, AxisRecord.stepped, toward, Direction.sign_toward]
  have counted : (s.axis a).reversed.countedStep = { r with position := some next } := by
    rw [AxisRecord.countedStep, stepped, reversed, known, Option.map_some, toward, Direction.next_toward, isNext]
  have remaining : (s.axis a).reversed.backlashRemaining = backlash := by rw [reversed]
  have place : (s.axis a).reversed.position = some p := by rw [reversed, known]
  have nextPlace : (s.axis a).reversed.lastDirection.next p = next := by
    rw [reversed, toward, Direction.next_toward, isNext]
  refine ⟨fun due => ?backlash, fun none within => ?counted, fun none isZoom leaves pair isPair => ?edge⟩
  case backlash =>
    rw [State.stepAxis_of_backlash (by rw [remaining]; exact due), AxisRecord.backlashStep, stepped, remaining]
  case counted =>
    rw [State.stepAxis_of_counted (remaining.trans none) place (by rw [nextPlace]; exact within), counted]
  case edge =>
    subst isZoom isPair
    have crosses : s.stepAxis .zoom = s.zoomCross s.zoom.reversed (next / 25) := by
      refine (State.zoomStepOn_of_counted (remaining.trans none) place).trans ?_
      rw [if_neg (by rw [← State.axis_zoom, nextPlace]; exact leaves), ← State.axis_zoom, nextPlace]
      rfl
    rw [crosses]
    refine ⟨fun i found permit => ?permitted, fun i found noPermit => ?forbidden, fun missed => ?missed⟩
    case permitted =>
      rw [State.zoomCross_of_permit (State.crossingLookup_of_permit found permit), ← State.axis_zoom, counted]
      rfl
    case forbidden =>
      rw [State.zoomCross_of_forbidden (State.crossingLookup_of_noPermit found noPermit), ← State.axis_zoom,
        AxisRecord.haltHere_eq place, reversed]
      rfl
    case missed =>
      rw [State.zoomCross_of_missed (State.crossingLookup_of_missed missed), ← State.axis_zoom, reversed]
      rfl

end Sys2Proof.Machine
end

