-- ==== Sys2Proof/Proofs/ZoomWait.lean ====
section
/-! What ends or keeps the zoom's wait for a band (R74 to R77). -/

namespace Sys2Proof.Machine

variable {s : State} {source : MissSource} {p band target : Nat} {d : Direction}

/-- The state with the wait over (R74 to R77). -/
def State.pastWait (s : State) : State := s.setTravel s.travel.endWait

/-! ### A resolution while ZOOM waits (R74) -/

theorem State.resolve_of_waiting (waits : s.zoom.state = .waitMap) (waited : s.travel.bandWaited = some band)
    (unpinned : s.resolver.pinned = false) (awake : s.standby = false) :
    s.resolve source = s.resolveWaiting band source := by
  rw [State.resolve, if_neg (Bool.eq_false_iff.mp unpinned), if_neg (Bool.eq_false_iff.mp awake), if_pos waits, waited]

theorem State.resolveWaiting_of_permit {i : Fin 32} (permitted : s.crossingLookup band = .permitted i)
    (crossing : s.travel.crossing = some d) : s.resolveWaiting band source =
      ((s.load i ⟨s.resolver.context, band⟩).setTravel s.travel.endWait).setAxis .zoom
        ({ s.zoom with lastDirection := d } : AxisRecord).countedStep := by
  simp only [State.resolveWaiting, permitted, crossing]
  rfl

theorem State.resolveWaiting_of_forbidden (forbidden : s.crossingLookup band = .forbidden) :
    s.resolveWaiting band source = s.pastWait.zoomForbidden.resolveHere .zoomStep := by
  simp only [State.resolveWaiting, forbidden]
  rfl

theorem State.resolveWaiting_of_missed (missed : s.crossingLookup band = .missed) :
    s.resolveWaiting band source = s.writeMiss ⟨s.resolver.context, band⟩ source := by
  simp only [State.resolveWaiting, missed]

theorem State.zoomForbidden_eq (known : s.zoom.position = some p) : s.zoomForbidden = { s with zoom := { s.zoom with
    backlashRemaining := 0, target := some p, stopPending := .none, ending := .bandForbidden, state := .settling
    stepTimer := none, wakeTimer := none, settleTimer := some s.zoom.profile.settle, mover := some .host } } := by
  rw [State.zoomForbidden, AxisRecord.haltHere_eq known]
  rfl

/-- A counted step in the direction of the crossing. -/
theorem AxisRecord.countedStep_eq {r : AxisRecord} (known : r.position = some p) : r.countedStep = { r with
    state := .moving, stepTimer := some r.profile.stepInterval
    motorSteps := r.motorSteps + (match r.lastDirection with | .towardHome => -1 | .awayFromHome => 1)
    position := some (match r.lastDirection with | .towardHome => p - 1 | .awayFromHome => p + 1) } := by
  rw [AxisRecord.countedStep, known]
  cases direction : r.lastDirection <;> simp [AxisRecord.stepped, direction, Direction.sign, Direction.next]

/-! ### The move ends on the old band (R75, R77) -/

theorem State.zoomEndWait_eq (known : s.zoom.position = some p) (e : Ending) : s.zoomEndWait e =
    ({ s.pastWait with zoom := { s.zoom with
      target := some p, stopPending := .none, ending := e, state := .settling, stepTimer := none, wakeTimer := none
      settleTimer := some s.zoom.profile.settle, mover := some .host } } : State).resolve .zoomStep := by
  rw [State.zoomEndWait, AxisRecord.settleHere_eq known]
  rfl

theorem exec_refillTimerExpiry (waits : s.zoom.state = .waitMap) (runs : s.travel.refillTimer = true) :
    exec .refillTimerExpiry s = .next (s.zoomEndWait .mapMiss).settleZero :=
  if_pos ⟨waits, runs⟩

theorem axisParam_zoom : axisParam [0#8] = some .zoom := rfl

/-- AXIS_STOP of a waiting ZOOM (R60, R77). -/
theorem exec_axisStop_of_waiting (ready : s.ready) (waits : s.zoom.state = .waitMap) :
    exec (.axisStop [0#8]) s = .next ((s.zoomEndWait .stopped).settleZero.answer ⟨.started, []⟩) := by
  have stopped : s.stopMove .zoom = s.zoomEndWait .stopped := by
    simp [State.stopMove, State.stopAxis, State.stopsSweep, State.stopsExposure, waits]
  have started : s.stopStarted .zoom = true := by
    simp [State.stopStarted, State.stopsSweep, AxisRecord.stopPosts, waits]
  refine (request_withParams_some (owner := axisStopOwner) ready axisParam_zoom).trans ?_
  rw [axisStopOwner, stopped, started]
  rfl

/-! ### A host move of a waiting ZOOM (R76) -/

theorem State.hostMove_of_waiting (waits : s.zoom.state = .waitMap) : s.hostMove .zoom target = s.waitingMove target := by
  simp only [State.hostMove, State.dropOwed, State.axis_zoom, waits, if_true]

/-- A target past a position in a direction. -/
def Direction.passes (d : Direction) (position target : Nat) : Prop :=
  match d with
  | .towardHome => target < position
  | .awayFromHome => position < target

theorem State.beyondEdge_iff (known : s.zoom.position = some p) (crossing : s.travel.crossing = some d) :
    s.beyondEdge target = true ↔ d.passes p target := by
  unfold State.beyondEdge
  rw [known, crossing]
  cases d <;> exact decide_eq_true_iff

/-- Settles O36. -/
theorem waitingZoomIsRefilledOrEnds : Obligations.WaitingZoomIsRefilledOrEnds := by
  unfold Obligations.WaitingZoomIsRefilledOrEnds
  intro s past p band d pair waits known waited crossing slot sweep awake isPair isPast
  have unpinned := Resolver.pinned_eq_false slot sweep
  have isPast : past = s.pastWait := isPast
  subst isPair isPast
  refine ⟨fun source => ⟨fun i found permit => ?permitted, fun i found noPermit => ?forbidden, fun missed => ?missed⟩,
    fun runs => ?refill, fun link => ?stop, fun x target link read may => ⟨fun beyond => ?beyond, fun short => ?short⟩⟩
  case permitted =>
    rw [State.resolve_of_waiting waits waited unpinned awake,
      State.resolveWaiting_of_permit (State.crossingLookup_of_permit found permit) crossing,
      AxisRecord.countedStep_eq (by exact known)]
    rfl
  case forbidden =>
    rw [State.resolve_of_waiting waits waited unpinned awake,
      State.resolveWaiting_of_forbidden (State.crossingLookup_of_noPermit found noPermit),
      State.zoomForbidden_eq (by exact known)]
    exact (State.resolve_here (by exact awake) (by exact unpinned) (by simp)).symm
  case missed =>
    rw [State.resolve_of_waiting waits waited unpinned awake,
      State.resolveWaiting_of_missed (State.crossingLookup_of_missed missed), State.writeMiss_eq]
    rfl
  case refill => rw [exec_refillTimerExpiry waits runs, State.zoomEndWait_eq known]
  case stop => rw [exec_axisStop_of_waiting ⟨link, awake⟩ waits, State.zoomEndWait_eq known]
  case beyond =>
    have beyondEdge := (State.beyondEdge_iff known crossing).mpr (by exact beyond)
    rw [exec_axisMove_started read ⟨link, awake⟩ may, State.hostMove_of_waiting waits, State.waitingMove,
      if_pos beyondEdge]
    rfl
  case short =>
    have notBeyond : ¬ s.beyondEdge target = true := by
      rw [State.beyondEdge_iff known crossing]
      cases d <;> exact Nat.not_lt.mpr short
    rw [exec_axisMove_started read ⟨link, awake⟩ may, State.hostMove_of_waiting waits, State.waitingMove,
      if_neg notBeyond]
    rfl

end Sys2Proof.Machine
end

