-- ==== Sys2Proof/Proofs/AxisStops.lean ====
section
/-! AXIS_STOP where no sweep runs on the axis (R60, R61), and the arm of a slot that a stop of its iris cancels (R162, R168). -/

namespace Sys2Proof.Machine

variable {s : State} {a : AxisId} {p : Bytes}

/-! ### The answer and the owner of an internal move -/

theorem exec_axisStop (read : axisParam p = some a) (ready : s.ready) : exec (.axisStop p) s =
    .next ((s.stopMove a).settleZero.answer ⟨if s.stopStarted a then .started else .done, []⟩) := by
  refine (request_withParams_some (owner := axisStopOwner) ready read).trans ?_
  unfold axisStopOwner
  cases s.stopStarted a <;> rfl

theorem SweepState.runs_iff {x : SweepState} : x.runs = true ↔ x ∈ [SweepState.travelling, .awaiting, .returning, .stopping] := by
  cases x <;> simp [SweepState.runs]

theorem State.stopsSweep_eq_false
    (noSweep : a = .focus → s.sweep.record.state ∉ [.travelling, .awaiting, .returning, .stopping]) :
    s.stopsSweep a = false := by
  rw [State.stopsSweep, Bool.and_eq_false_iff]
  by_cases focus : a = .focus
  · exact .inr (Bool.eq_false_iff.mpr fun runs => noSweep focus (SweepState.runs_iff.mp runs))
  · exact .inl (decide_eq_false focus)

theorem State.stopStarted_of_noSweep (noSweep : s.stopsSweep a = false) : s.stopStarted a = (s.axis a).stopPosts := by
  rw [State.stopStarted, noSweep]
  rfl

/-- Without a sweep only an exposure iris in motion has an owner to be told (R61, R162). -/
theorem State.stopMove_of_noSweep (noSweep : s.stopsSweep a = false) :
    s.stopMove a = if s.stopsExposure a then (s.stopAxis a).irisStopped else s.stopAxis a := by
  rw [State.stopMove, noSweep]
  rfl

theorem State.stopsExposure_of_moving (moving : (s.axis a).state ∈ [.waking, .moving]) : s.stopsExposure a = true ↔
    a = .iris ∧ ((s.axis a).mover = some .exposure ∨ (s.axis a).joined = some .exposure) := by
  rw [List.mem_pair] at moving
  cases a
  case zoom => simp [State.stopsExposure]
  case focus => simp [State.stopsExposure]
  case iris => simpa [State.stopsExposure] using fun _ => moving

theorem State.stopsExposure_of_notMoving (waking : (s.axis a).state ≠ .waking) (moving : (s.axis a).state ≠ .moving) :
    s.stopsExposure a = false := by
  cases a
  case zoom => rfl
  case focus => rfl
  case iris =>
    simp only [State.axis_iris] at waking moving
    simp [State.stopsExposure, waking, moving]

/-! ### The stop by the state of the axis (R60) -/

theorem State.stopAxis_of_still (still : (s.axis a).state ∈ [.unhomed, .idle, .fault, .settling]) : s.stopAxis a = s := by
  simp only [List.mem_cons, List.not_mem_nil, or_false] at still
  obtain h | h | h | h := still <;> simp only [State.stopAxis, h]

theorem AxisRecord.stopPosts_of_still {r : AxisRecord} (still : r.state ∈ [.unhomed, .idle, .fault, .settling]) :
    r.stopPosts = false := by
  simp only [List.mem_cons, List.not_mem_nil, or_false] at still
  unfold AxisRecord.stopPosts
  obtain h | h | h | h := still <;> rw [h]

theorem State.stopAxis_of_waking (waking : (s.axis a).state = .waking) :
    s.stopAxis a = s.setAxis a ((s.axis a).settleHere .stopped) := by
  simp only [State.stopAxis, waking]

theorem State.stopAxis_of_wakingHome (homing : (s.axis a).state = .homing) (wakes : (s.axis a).wakeTimer ≠ none) :
    s.stopAxis a = s.setAxis a ((s.axis a).unhome.post .stopped none none) := by
  have wakes : (s.axis a).wakeTimer.isSome = true := Option.isSome_iff_ne_none.mpr wakes
  simp only [State.stopAxis, homing, wakes, if_true]

theorem AxisRecord.stopPosts_of_moving {r : AxisRecord} (moving : r.state ∈ [.waking, .moving]) :
    r.stopPosts = true ↔ r.mover = some .host ∧ r.stopPending ≠ .clear := by
  rw [List.mem_pair] at moving
  unfold AxisRecord.stopPosts
  obtain h | h := moving <;> rw [h] <;> simp

theorem AxisRecord.stopPosts_of_homing {r : AxisRecord} (homing : r.state = .homing) :
    r.stopPosts = true ↔ r.stopPending ≠ .clear := by
  unfold AxisRecord.stopPosts
  rw [homing]
  exact decide_eq_true_iff

/-! ### A cancelled arm (R162, R168) -/

theorem State.irisStopped_of_noArm (noArm : s.release.control.armed = none) : s.irisStopped = s := by
  unfold State.irisStopped
  rw [noArm]

theorem State.irisStopped_of_arm {i : Fin 12} (armed : s.release.control.armed = some i) :
    s.irisStopped = if (s.release.slots[i]).state = .armed then s.cancelArm i (some .busy) .busy else s := by
  unfold State.irisStopped
  rw [armed]

/-- The controller's record as an arm is cancelled, before a burst or FINISHING ends on it. -/
def Release.cancelled (r : Release) (i : Fin 12) (refusal : Option Result) : Release :=
  { r with
    slots := r.slots.set i Slot.cleared, control := ExposureControl.cleared, steadyTimer := false
    lastRefusal := match refusal with | some code => some code | none => r.lastRefusal
    burst := { r.burst with notice := true } }

theorem State.cancelArm_eq (s : State) (i : Fin 12) (refusal : Option Result) (reason : EndReason) :
    s.cancelArm i refusal reason = { s.letSlotGo with
      release := (if s.release.burst.running ∧ s.release.burst.current = some i
        then (s.release.cancelled i refusal).endBurst reason else s.release.cancelled i refusal).finish i } := by
  unfold State.cancelArm
  dsimp only
  rw [s.letSlotGo_release]
  cases refusal <;> rfl

/-- Settles O37. -/
theorem stopEndsTheMoveOrTheHoming : Obligations.StopEndsTheMoveOrTheHoming := by
  unfold Obligations.StopEndsTheMoveOrTheHoming
  refine ⟨fun p a s r told read ready isAxis noSweep isTold => ?stop, fun s => ⟨State.irisStopped_of_noArm,
    fun i armed => ⟨fun left => ?left, fun held => ?held⟩⟩,
    fun s t i refusal reason r isLetGo isCancelled => ⟨fun noBurst => ?noBurst,
      fun running current => ?burst, rfl⟩⟩
  case stop =>
    subst isAxis isTold
    have noSweep := State.stopsSweep_eq_false noSweep
    rw [exec_axisStop read ready, State.stopMove_of_noSweep noSweep, State.stopStarted_of_noSweep noSweep]
    refine ⟨fun still => ?still, fun waking noStop => ?waking, fun moving => ?moving, fun homing stepping => ?homing,
      fun homing wakes noStop => ?wakingHome⟩
    case still =>
      have noWaking : (s.axis a).state ≠ .waking := fun h => by simp [h] at still
      have noMoving : (s.axis a).state ≠ .moving := fun h => by simp [h] at still
      rw [State.stopsExposure_of_notMoving noWaking noMoving, State.stopAxis_of_still still,
        AxisRecord.stopPosts_of_still still]
      rfl
    case waking =>
      have inMotion : (s.axis a).state ∈ [.waking, .moving] := by simp [waking]
      simp only [State.stopsExposure_of_moving inMotion, State.stopAxis_of_waking waking,
        AxisRecord.stopPosts_of_moving inMotion, noStop, ne_eq, reduceCtorEq, not_false_eq_true, and_true]
      rfl
    case moving =>
      have inMotion : (s.axis a).state ∈ [.waking, .moving] := by simp [moving]
      simp only [State.stopsExposure_of_moving inMotion, State.stopAxis_moving s a moving,
        AxisRecord.stopPosts_of_moving inMotion]
    case homing =>
      have notMoving := State.stopsExposure_of_notMoving (s := s) (a := a) (by rw [homing]; decide) (by rw [homing]; decide)
      simp only [notMoving, State.stopAxis_homing s a homing stepping, AxisRecord.stopPosts_of_homing homing,
        Bool.false_eq_true, if_false]
    case wakingHome =>
      have notMoving := State.stopsExposure_of_notMoving (s := s) (a := a) (by rw [homing]; decide) (by rw [homing]; decide)
      have posts := (AxisRecord.stopPosts_of_homing homing).mpr (by rw [noStop]; decide)
      rw [notMoving, posts, State.stopAxis_of_wakingHome homing wakes, AxisRecord.unhome_eq]
      rfl
  case left => rw [State.irisStopped_of_arm armed, if_neg left]
  case held => rw [State.irisStopped_of_arm armed, if_pos held]
  case noBurst =>
    subst isLetGo isCancelled
    have notOnIt : ¬ (s.release.burst.running = true ∧ s.release.burst.current = some i) := by
      rintro ⟨running, current⟩
      obtain stopped | other := noBurst
      · exact Bool.eq_false_iff.mp stopped running
      · exact other current
    rw [State.cancelArm_eq, if_neg notOnIt]
    cases refusal <;> rfl
  case burst =>
    subst isLetGo isCancelled
    rw [State.cancelArm_eq, if_pos ⟨running, current⟩]
    cases refusal <;> rfl

end Sys2Proof.Machine
end

