-- ==== Sys2Proof/Proofs/AxisRest.lean ====
section
/-! The axes at rest (03): a settle that expires (R45, R50, R53, R58, R81), AXIS_COLLECT (R64), AXIS_PROFILE and its hold-off
(R66, R67), and internal moves (R57, R58). -/

namespace Sys2Proof.Machine

variable {s : State} {a : AxisId}

/-! ### A settle expires (R50) -/

theorem exec_settleTimerExpiry (settling : (s.axis a).state = .settling) (runs : (s.axis a).settleTimer ≠ none) :
    exec (.settleTimerExpiry a) s = .next (s.settleExpired a).settleZero :=
  if_pos ⟨settling, Option.isSome_iff_ne_none.mpr runs⟩

theorem Ending.outcome_eq (e : Ending) : e.outcome = match e with
    | .reached => .reached | .stopped => .stopped | .homed => .homed | .bandForbidden => .bandForbidden
    | .mapMiss => .mapMiss := by
  cases e <;> rfl

theorem State.settleExpired_zoom (s : State) : s.settleExpired .zoom =
    if s.zoom.ending = .homed then ({ s with zoom := s.zoom.settled } : State).resolve .zoomStep
    else { s with zoom := s.zoom.settled } := rfl

theorem State.settleExpired_iris (s : State) : s.settleExpired .iris =
    if s.iris.mover = some .exposure ∨ s.iris.joined = some .exposure
    then ({ s with iris := s.iris.settled } : State).irisSettled else { s with iris := s.iris.settled } := rfl

/-- FOCUS: a completed homing is brought within the limits, a sweep is told of its stop, and what is owed is taken (R53, R58,
R81, R82). -/
theorem State.settleExpired_focus (s : State) : s.settleExpired .focus =
    (if s.focus.mover = some .sweep
      then (if s.focus.ending = .homed then ({ s with focus := s.focus.settled } : State).focusHomed
        else { s with focus := s.focus.settled }).sweepAtRest
      else (if s.focus.ending = .homed then ({ s with focus := s.focus.settled } : State).focusHomed
        else { s with focus := s.focus.settled })).applyOwed := rfl

theorem State.sweepAtRest_of_travelling (travels : s.sweep.record.state = .travelling) : s.sweepAtRest = { s with
    sweep := { s.sweep with
      record := { s.sweep.record with state := .awaiting, awaiting := true }, deadline := true } } := by
  simp only [State.sweepAtRest, travels, State.setSweep]

theorem State.sweepAtRest_of_returning (returns : s.sweep.record.state = .returning) :
    s.sweepAtRest = s.endSweep .hit := by
  simp only [State.sweepAtRest, returns]

theorem State.sweepAtRest_of_stopping (stops : s.sweep.record.state = .stopping) :
    s.sweepAtRest = s.endSweep .stopped := by
  simp only [State.sweepAtRest, stops]

theorem State.settleNow_of_due (settling : (s.axis a).state = .settling) (due : (s.axis a).settleTimer = some 0) :
    s.settleNow a = s.settleExpired a := if_pos ⟨settling, due⟩

theorem State.settleNow_of_notDue (notDue : (s.axis a).state ≠ .settling ∨ (s.axis a).settleTimer ≠ some 0) :
    s.settleNow a = s := if_neg (not_and_or.mpr notDue)

/-- Settles O38. -/
theorem settleExpiryEndsTheMove : Obligations.SettleExpiryEndsTheMove := by
  unfold Obligations.SettleExpiryEndsTheMove
  refine ⟨fun a s settling runs => exec_settleTimerExpiry settling runs, fun a s r rest isAxis isRest => ?expired,
    fun s => ⟨rfl, State.settleZero_id, fun a => ⟨State.settleNow_of_due, State.settleNow_of_notDue⟩⟩⟩
  have settled : rest = (s.axis a).settled := by
    rw [isRest, isAxis, AxisRecord.settled_eq, Ending.outcome_eq] <;> rfl
  subst isAxis settled
  refine ⟨fun zoom other => ?zoom, fun zoom homed => ?zoomHomed, fun iris mover joined => ?iris,
    fun iris exposes => ?irisExposure, fun focus noSweep other => ?focus, fun focus noSweep homed => ?focusHomed,
    fun focus sweeps other => ?focusSweep⟩
  case zoom =>
    subst zoom
    exact (State.settleExpired_zoom s).trans (if_neg other)
  case zoomHomed =>
    subst zoom
    exact (State.settleExpired_zoom s).trans (if_pos homed)
  case iris =>
    subst iris
    exact (State.settleExpired_iris s).trans (if_neg (not_or.mpr ⟨mover, joined⟩))
  case irisExposure =>
    subst iris
    exact (State.settleExpired_iris s).trans (if_pos exposes)
  case focus =>
    subst focus
    simp only [State.axis_focus] at noSweep other
    rw [State.settleExpired_focus, if_neg noSweep, if_neg other]
    rfl
  case focusHomed =>
    subst focus
    simp only [State.axis_focus] at noSweep homed
    rw [State.settleExpired_focus, if_neg noSweep, if_pos homed]
    rfl
  case focusSweep =>
    subst focus
    simp only [State.axis_focus] at sweeps other
    rw [State.settleExpired_focus, if_pos sweeps, if_neg other]
    refine ⟨fun travels => ?travelling, fun returns => ?returning, fun stops => ?stopping⟩
    case travelling =>
      rw [State.sweepAtRest_of_travelling (by exact travels)]
      rfl
    case returning =>
      rw [State.sweepAtRest_of_returning (by exact returns)]
      rfl
    case stopping =>
      rw [State.sweepAtRest_of_stopping (by exact stops)]
      rfl

/-! ### AXIS_COLLECT (R64) -/

theorem exec_axisCollect {p : Bytes} (read : axisParam p = some a) (ready : s.ready) : exec (.axisCollect p) s =
    .next ((axisCollectOwner a s).1.answer (axisCollectOwner a s).2) :=
  request_withParams_some ready read

/-- Settles O39. -/
theorem collectReturnsTheCompletionOnce : Obligations.CollectReturnsTheCompletionOnce := by
  unfold Obligations.CollectReturnsTheCompletionOnce
  refine ⟨fun p s ready => ⟨fun a read => ⟨fun pending => ?collected, fun collected => ?none⟩,
    fun bad => request_withParams_none ready bad⟩, fun c a o outcome => ?data⟩
  case collected =>
    rw [exec_axisCollect read ready, axisCollectOwner, if_pos pending]
    rfl
  case none =>
    rw [exec_axisCollect read ready, axisCollectOwner, if_neg (Bool.eq_false_iff.mp collected)]
    rfl
  case data =>
    rw [Completion.collectData, outcome, List.append_assoc]
    cases a <;> rfl

/-! ### AXIS_PROFILE (R66, R67) -/

theorem AxisRecord.withProfile_eq (r : AxisRecord) (n : Profile) : r.withProfile n = { r with
    profile := n
    holdTimer := if r.holdTimer = none ∨ n.holdRelease = 0 then none else some n.holdRelease } := by
  unfold AxisRecord.withProfile
  cases r.holdTimer <;> simp

theorem exec_axisProfile {p : Bytes} {n : Profile} (read : profileParams p = some (a, n)) (ready : s.ready) :
    exec (.axisProfile p) s =
      .next ((axisProfileOwner (a, n) s).1.answer (axisProfileOwner (a, n) s).2) :=
  request_withParams_some ready read

/-- Every axis rests. -/
theorem State.allResting_iff {s : State} : (s.zoom.state.resting = true ∧ s.focus.state.resting = true ∧
    s.iris.state.resting = true) ↔ ∀ b : AxisId, (s.axis b).state ∈ [.unhomed, .idle, .fault] := by
  simp only [← AxisState.resting_iff]
  constructor
  · rintro ⟨zoom, focus, iris⟩ b
    cases b
    case zoom => exact zoom
    case focus => exact focus
    case iris => exact iris
  · exact fun rest => ⟨rest .zoom, rest .focus, rest .iris⟩

/-- Settles O40. -/
theorem profileIsReplacedAndHeldOff : Obligations.ProfileIsReplacedAndHeldOff := by
  unfold Obligations.ProfileIsReplacedAndHeldOff
  refine ⟨fun p a n s read ready => ⟨fun ⟨b, moves⟩ => ?busy, fun rest => ?replaced⟩,
    fun s => ⟨fun a runs => if_pos (Option.isSome_iff_ne_none.mpr runs), rfl⟩⟩
  case busy =>
    rw [exec_axisProfile read ready, axisProfileOwner, if_neg fun rest => moves (State.allResting_iff.mp rest b)]
    rfl
  case replaced =>
    rw [exec_axisProfile read ready, axisProfileOwner, if_pos (State.allResting_iff.mpr rest), AxisRecord.withProfile_eq]
    cases a <;> rfl

/-! ### Internal moves (R57, R58) -/

variable {target : Nat} {m : Mover} {r : AxisRecord}

/-- An internal move that begins joins a host move that settles (R58). -/
theorem AxisRecord.begin_internal (notHost : m ≠ .host) (r : AxisRecord) (target : Nat) : r.begin target m = { r with
    target := some target, ending := .reached, holdTimer := none, settleTimer := none
    mover := some (if r.state = .settling ∧ r.mover = some .host then .host else m)
    joined := if r.state = .settling ∧ r.mover = some .host then some m else none } := by
  simp [AxisRecord.begin, notHost]

/-- An internal move on a moving axis joins a host move (R58). -/
theorem AxisRecord.retarget_internal (notHost : m ≠ .host) (r : AxisRecord) (target : Nat) : r.retarget target m = { r with
    target := some target, stopPending := .none, releaseAtRest := false
    mover := some (if r.mover = some .host then .host else m)
    joined := if r.mover = some .host then some m else none } := by
  simp [AxisRecord.retarget, notHost]

theorem AxisRecord.internal_of_notHomed (notTaken : r.state ∈ [.unhomed, .homing, .fault, .waitMap]) :
    r.internal target m = r := by
  simp only [List.mem_cons, List.not_mem_nil, or_false] at notTaken
  unfold AxisRecord.internal
  obtain h | h | h | h := notTaken <;> rw [h]

theorem AxisRecord.internal_of_moving (moving : r.state ∈ [.waking, .moving]) :
    r.internal target m = r.retarget target m := by
  rw [List.mem_pair] at moving
  unfold AxisRecord.internal
  obtain h | h := moving <;> rw [h]

theorem AxisRecord.internal_of_resting (resting : r.state ∈ [.idle, .settling]) :
    r.internal target m = (r.begin target m).startPlain := by
  rw [List.mem_pair] at resting
  unfold AxisRecord.internal
  obtain h | h := resting <;> rw [h]

theorem AxisRecord.startPlain_of_atTarget (atTarget : r.target = r.position) : r.startPlain = r.settle :=
  if_pos atTarget

theorem AxisRecord.startPlain_of_energized (away : r.target ≠ r.position) (energized : r.hold = .energized) :
    r.startPlain = r.stepOn := (if_neg away).trans (if_pos energized)

theorem AxisRecord.startPlain_of_released (away : r.target ≠ r.position) (released : r.hold = .released) :
    r.startPlain = r.wake .waking := (if_neg away).trans (if_neg (by rw [released]; decide))

/-- A step of an axis without band edges. -/
theorem State.stepAxis_plain (plain : a ≠ .zoom) : s.stepAxis a = s.setAxis a (s.axis a).stepOn := by
  cases a
  case zoom => exact absurd rfl plain
  case focus => rfl
  case iris => rfl

/-- Settles O41. -/
theorem internalMoveBeginsJoinsOrRetargets : Obligations.InternalMoveBeginsJoinsOrRetargets := by
  unfold Obligations.InternalMoveBeginsJoinsOrRetargets
  intro s a target m r b plain notHost isAxis isBegun
  subst isAxis
  have begun : (s.axis a).begin target m = b := (AxisRecord.begin_internal notHost _ _).trans isBegun.symm
  have targeted : b.target = some target := by rw [isBegun]
  have place : b.position = (s.axis a).position := by rw [isBegun]
  have coils : b.hold = (s.axis a).hold := by rw [isBegun]
  have profile : b.profile = (s.axis a).profile := by rw [isBegun]
  unfold State.internalMove
  refine ⟨fun notTaken => ?notTaken, fun moving => ?retargeted, fun resting => ?begins⟩
  case notTaken => rw [AxisRecord.internal_of_notHomed notTaken, State.setAxis_self]
  case retargeted => rw [AxisRecord.internal_of_moving moving, AxisRecord.retarget_internal notHost]
  case begins =>
    rw [AxisRecord.internal_of_resting resting, begun, ← profile]
    refine ⟨fun atTarget => ?settles, fun away energized => ?steps, fun away released => ?wakes⟩
    case settles =>
      rw [AxisRecord.startPlain_of_atTarget (by rw [targeted, place, atTarget])]
      rfl
    case steps =>
      rw [AxisRecord.startPlain_of_energized (by rw [targeted, place]; exact away.symm) (by rw [coils, energized]),
        State.stepAxis_plain plain, State.axis_setAxis_same, State.setAxis_setAxis]
    case wakes =>
      rw [AxisRecord.startPlain_of_released (by rw [targeted, place]; exact away.symm) (by rw [coils, released])]
      rfl

end Sys2Proof.Machine
end

