-- ==== Sys2Proof/Proofs/Tracking.lean ====
section
/-! Focus tracking (04): the loads that shift FOCUS (R78 to R80, R82), what it is owed (R80, R81), and the end of its homing
(R82). -/

namespace Sys2Proof.Machine

variable {s : State} {l : TrackLoad} {target present p : Nat}

/-! ### Loads in flight -/

theorem exec_trackingLoad {rest : List TrackLoad} (flight : s.handoffs.loads = l :: rest) : exec .trackingLoad s =
    .next (({ s with handoffs := { s.handoffs with loads := rest } } : State).track l).settleZero := by
  show execTrackingLoad s = _
  rw [execTrackingLoad, flight]
  rfl

/-! ### Where FOCUS stands -/

theorem AxisState.homed_eq_false {x : AxisState} : x.homed = false ↔ x ∈ [AxisState.unhomed, .homing, .fault] := by
  cases x <;> simp [AxisState.homed]

/-- A stop of FOCUS is under way (R80). -/
theorem AxisRecord.stopping_iff {r : AxisRecord} : r.stopping = true ↔
    (r.state = .moving ∧ r.stopPending ≠ .none) ∨ (r.state = .settling ∧ r.ending = .stopped) := by
  unfold AxisRecord.stopping
  cases r.state <;> simp

/-- FOCUS takes no load: it has no position, settles from its homing, or belongs to a sweep (R79, R82). -/
theorem State.track_of_discarded (discarded : s.focus.state ∈ [.unhomed, .homing, .fault] ∨
    (s.focus.state = .settling ∧ s.focus.ending = .homed) ∨ s.focus.ownership = .sweep) : s.track l = s := by
  refine if_pos ?_
  rw [← AxisState.homed_eq_false, ← AxisRecord.settlingHome_iff] at discarded
  simpa [or_assoc] using discarded

/-- FOCUS takes loads: it is homed, its homing has settled, and no sweep owns it. -/
theorem State.takesLoads_of_homed (free : s.focus.ownership ≠ .sweep) (homed : s.focus.state.homed = true)
    (settled : s.focus.settlingHome = false) :
    ¬ ((!s.focus.state.homed || s.focus.settlingHome || s.focus.ownership = .sweep) = true) := by
  simp [free, homed, settled]

theorem clampInt_owed (x : Int) : clampInt (-Config.owedLimit) Config.owedLimit x = max (-4095) (min 4095 x) :=
  clampInt_eq _ _ _ (by decide)

/-- While FOCUS is being stopped the delta is owed (R80). -/
theorem State.track_of_stopping (free : s.focus.ownership ≠ .sweep)
    (stopping : (s.focus.state = .moving ∧ s.focus.stopPending ≠ .none) ∨
      (s.focus.state = .settling ∧ s.focus.ending = .stopped)) :
    s.track l = { s with travel := { s.travel with
      owedMark := true, owed := max (-4095) (min 4095 (s.travel.owed + (l.facts.offset - l.reference))) } } := by
  have homed : s.focus.state.homed = true := by
    obtain ⟨h, -⟩ | ⟨h, -⟩ := stopping <;> rw [h] <;> rfl
  have settled : s.focus.settlingHome = false := by
    obtain ⟨h, -⟩ | ⟨-, h⟩ := stopping <;> simp [AxisRecord.settlingHome, h]
  unfold State.track
  dsimp only
  rw [if_neg (State.takesLoads_of_homed free homed settled), if_pos (AxisRecord.stopping_iff.mpr stopping),
    ZoomTravel.addOwed, clampInt_owed]
  rfl

/-- Otherwise the target is shifted by the delta and by what is owed, within the new limits (R78, R80). -/
theorem State.track_of_free (free : s.focus.ownership ≠ .sweep)
    (follows : s.focus.state ∈ [.idle, .waking] ∨ (s.focus.state = .moving ∧ s.focus.stopPending = .none) ∨
      (s.focus.state = .settling ∧ s.focus.ending ≠ .homed ∧ s.focus.ending ≠ .stopped))
    (targeted : s.focus.target = some present)
    (clamped : l.facts.clamp (present + (l.facts.offset - l.reference) + s.travel.owed) = target) :
    s.track l = if target = present then s.setTravel s.travel.clearOwed
      else (s.setTravel s.travel.clearOwed).internalMove .focus target .tracking := by
  rw [List.mem_pair] at follows
  have homed : s.focus.state.homed = true := by
    obtain (h | h) | ⟨h, -⟩ | ⟨h, -⟩ := follows <;> rw [h] <;> rfl
  have settled : s.focus.settlingHome = false := by
    obtain (h | h) | ⟨h, -⟩ | ⟨-, h, -⟩ := follows <;> simp [AxisRecord.settlingHome, h]
  have going : ¬ s.focus.stopping = true := by
    rw [AxisRecord.stopping_iff]
    obtain (h | h) | ⟨h, h'⟩ | ⟨h, -, h'⟩ := follows <;> simp [h]
    · exact h'
    · exact h'
  unfold State.track
  dsimp only
  rw [if_neg (State.takesLoads_of_homed free homed settled), if_neg going, targeted, Option.getD_some, clamped]

/-! ### What FOCUS is owed, and its homing (R81, R82) -/

theorem State.applyOwed_of_nothing (nothing : s.travel.owedMark = false ∨ s.resolver.record.resolved = false) :
    s.applyOwed = s := by
  refine if_neg ?_
  obtain h | h := nothing <;> simp [h]

theorem State.applyOwed_of_owed (owed : s.travel.owedMark = true) (resolved : s.resolver.record.resolved = true)
    (free : s.focus.ownership ≠ .sweep) (known : s.focus.position = some p)
    (clamped : s.resolver.record.facts.clamp (p + s.travel.owed) = target) :
    s.applyOwed = if target = p then s.setTravel s.travel.clearOwed
      else (s.setTravel s.travel.clearOwed).internalMove .focus target .tracking := by
  have applies : (s.travel.owedMark && s.resolver.record.resolved && s.focus.ownership ≠ .sweep) = true := by
    simp [owed, resolved, free]
  unfold State.applyOwed
  rw [if_pos applies]
  simp only [known, Option.getD_some, clamped]

theorem State.focusHomed_of_unresolved (unresolved : s.resolver.record.resolved = false) : s.focusHomed = s :=
  if_neg (Bool.eq_false_iff.mp unresolved)

theorem State.focusHomed_of_resolved (resolved : s.resolver.record.resolved = true)
    (targeted : s.focus.target = some present) (clamped : s.resolver.record.facts.clamp present = target) :
    s.focusHomed = if target = present then s else s.internalMove .focus target .tracking := by
  unfold State.focusHomed
  rw [if_pos resolved]
  simp only [targeted, Option.getD_some, clamped]

/-- Settles O42. -/
theorem trackingLoadMovesFocus : Obligations.TrackingLoadMovesFocus := by
  unfold Obligations.TrackingLoadMovesFocus
  refine ⟨fun l rest s flight => exec_trackingLoad flight, fun s => rfl,
    fun s l delta isDelta => ⟨State.track_of_discarded, fun free stopping => ?owes,
      fun present target free follows targeted limits isTarget => ?follows⟩,
    fun s p target known limits => ⟨State.applyOwed_of_nothing, fun owed resolved free isTarget => ?owed,
      fun targeted => ⟨State.focusHomed_of_unresolved, fun resolved isTarget => ?homed⟩⟩⟩
  case owes =>
    rw [State.track_of_stopping free stopping, isDelta]
  case follows =>
    subst isDelta
    exact State.track_of_free free follows targeted (LensFacts.clamp_eq limits isTarget)
  case owed => exact State.applyOwed_of_owed owed resolved free known (LensFacts.clamp_eq limits isTarget)
  case homed =>
    push_cast at isTarget
    exact State.focusHomed_of_resolved resolved targeted (LensFacts.clamp_eq limits isTarget)

end Sys2Proof.Machine
end

