-- ==== Sys2Proof/Proofs/SweepRun.lean ====
section
/-! The focus sweep (05): its series of stops (R88, R92), its beginning (R89 to R91) and the judging of its contrast figures
(R92 to R99). -/

namespace Sys2Proof.Machine

variable {s : State} {w : SweepParams} {p : Bytes} {k : Nat}

/-! ### The series of stops (R88) -/

theorem SweepParams.stopAt_last {n : Nat} (last : w.planned ≤ n) : w.stopAt n = w.last := if_pos last

theorem SweepParams.stopAt_up {n : Nat} (before : n < w.planned) (up : w.start < w.last) :
    w.stopAt n = w.start + (n - 1) * w.stride := (if_neg (Nat.not_le.mpr before)).trans (if_pos up)

theorem SweepParams.stopAt_down {n : Nat} (before : n < w.planned) (down : w.last < w.start) :
    w.stopAt n = w.start - (n - 1) * w.stride :=
  (if_neg (Nat.not_le.mpr before)).trans (if_neg (Nat.not_lt.mpr down.le))

theorem LensFacts.within_iff {f : LensFacts} {x : Nat} : f.within x = true ↔ f.far ≤ x ∧ x ≤ f.near := decide_eq_true_iff

/-! ### The next stop (R92) -/

theorem State.nextStop_of_found {n : Nat} (at' : s.sweep.record.stopNumber.getD 0 = n) (after : n < k)
    (planned : k ≤ s.sweep.record.stopsPlanned)
    (within : s.resolver.record.facts.within (s.sweep.record.params.stopAt k) = true)
    (skipped : ∀ j, n < j → j < k → s.resolver.record.facts.within (s.sweep.record.params.stopAt j) = false) :
    s.nextStop = ((s.setSweepRecord { s.sweep.record with
      state := .travelling, stopNumber := some k, stopPosition := some (s.sweep.record.params.stopAt k)
      skipped := s.sweep.record.skipped + (k - (n + 1)) }).internalMove .focus (s.sweep.record.params.stopAt k) .sweep,
      true) := by
  have found := SweepParams.nextWithin_some (s.sweep.record.stopsPlanned - n) (n + 1) k after (by omega) within skipped
  simp only [State.nextStop, at', found]

theorem State.nextStop_of_exhausted {n : Nat} (at' : s.sweep.record.stopNumber.getD 0 = n)
    (skipped : ∀ j, n < j → j ≤ s.sweep.record.stopsPlanned →
      s.resolver.record.facts.within (s.sweep.record.params.stopAt j) = false) :
    s.nextStop = (s.setSweepRecord { s.sweep.record with
      skipped := s.sweep.record.skipped + (s.sweep.record.stopsPlanned - n) }, false) := by
  have exhausted := SweepParams.nextWithin_none (s.sweep.record.stopsPlanned - n) (n + 1)
    fun j after before => skipped j after (by omega)
  simp only [State.nextStop, at', exhausted]

/-! ### A sweep begins (R91, R92) -/

/-- The sweep travels to the first stop within the limits. -/
theorem State.beginSweep_of_found {origin : SweepOrigin} (from' : 1 ≤ k) (planned : k ≤ w.planned)
    (within : s.resolver.record.facts.within (w.stopAt k) = true)
    (skipped : ∀ j, 1 ≤ j → j < k → s.resolver.record.facts.within (w.stopAt j) = false) :
    s.beginSweep origin w = (({ s with
      sweep := { s.sweep with record := ⟨.travelling, origin, w, w.planned, some k, some (w.stopAt k), false, false, 0, none,
        none, k - 1, none⟩ }
      focus := { s.focus with ownership := .sweep }
      resolver := { s.resolver with sweepPin := true } } : State).internalMove .focus (w.stopAt k) .sweep, none) := by
  have next := State.nextStop_of_found (s := s.openSweep origin w) (n := 0) rfl from' planned within skipped
  rw [State.beginSweep, next, if_pos rfl, Nat.zero_add]
  simp only [State.openSweep, State.setSweepRecord, State.setSweep_sweep, State.setAxis_sweep, State.setResolver_sweep,
    Nat.zero_add]
  rfl

/-- With no stop within the limits the sweep ends within its start. -/
theorem State.beginSweep_of_exhausted {origin : SweepOrigin}
    (skipped : ∀ j, 1 ≤ j → j ≤ w.planned → s.resolver.record.facts.within (w.stopAt j) = false) :
    s.beginSweep origin w = (({ s with
      sweep := { s.sweep with
        record := ⟨.ended, origin, w, w.planned, none, none, false, false, 0, none, none, w.planned, some .miss⟩
        deadline := false }
      focus := { s.focus with ownership := .none }
      resolver := { s.resolver with sweepPin := true } } : State).releasePin .sweep, some .miss) := by
  have next := State.nextStop_of_exhausted (s := s.openSweep origin w) (n := 0) rfl skipped
  rw [State.beginSweep, next, if_neg Bool.false_ne_true, Nat.sub_zero]
  simp only [State.openSweep, State.setSweepRecord, State.setSweep_sweep, State.setAxis_sweep, State.setResolver_sweep,
    Nat.zero_add]
  rfl

/-! ### The checks of SWEEP_START (R89) -/

theorem AxisState.inTravel_iff {x : AxisState} : x.inTravel = true ↔ x ∈ [AxisState.waking, .moving, .waitMap] := by
  cases x <;> simp [AxisState.inTravel]

theorem SweepState.runs_eq_false {x : SweepState} : x.runs = false ↔ x ∈ [SweepState.none, .ended] := by
  cases x <;> simp [SweepState.runs]

theorem State.sweepRefusal_of_notHomed (notHomed : s.focus.state ∈ [.unhomed, .homing]) :
    s.sweepRefusal = some .notHomed := by
  rw [List.mem_pair] at notHomed
  exact if_pos notHomed

theorem State.sweepRefusal_of_fault (fault : s.focus.state = .fault) : s.sweepRefusal = some .axisFault := by
  simp [State.sweepRefusal, fault]

/-- The checks that follow those of the state, for a homed FOCUS. -/
theorem State.sweepRefusal_of_homed (homed : s.focus.state ∉ [.unhomed, .homing, .fault]) : s.sweepRefusal =
    if s.focus.completion.pending then some .uncollected
    else if ¬(s.focus.state = .idle ∧ s.focus.ownership = .none ∧ s.sweep.record.state.runs = false) then some .busy
    else if s.zoom.state.inTravel then some .busy
    else if !s.resolver.record.resolved then some .noLens
    else none := by
  simp only [List.mem_cons, List.not_mem_nil, or_false, not_or] at homed
  obtain ⟨unhomed, homing, fault⟩ := homed
  unfold State.sweepRefusal
  rw [if_neg (not_or.mpr ⟨unhomed, homing⟩), if_neg fault]

theorem State.hostSweepRefusal_of_refused {code : Result} (refused : s.sweepRefusal = some code) :
    s.hostSweepRefusal w = some code := by
  rw [State.hostSweepRefusal, refused]

theorem State.hostSweepRefusal_of_taken (taken : s.sweepRefusal = none) : s.hostSweepRefusal w =
    if s.resolver.record.facts.within w.start && s.resolver.record.facts.within w.last then none
    else some .outOfLimits := by
  rw [State.hostSweepRefusal, taken]

theorem exec_sweepStart_refused {code : Result} (read : sweepParams p = some w) (ready : s.ready)
    (refused : s.takeHandoffs.hostSweepRefusal w = some code) :
    exec (.sweepStart p) s = .next (s.answer ⟨code, []⟩) := by
  refine (request_withParams_some (owner := sweepStartOwner) ready read).trans ?_
  simp only [sweepStartOwner, refused]
  rfl

theorem exec_sweepStart_started (read : sweepParams p = some w) (ready : s.ready)
    (taken : s.takeHandoffs.hostSweepRefusal w = none) : exec (.sweepStart p) s =
      .next ((s.takeHandoffs.beginSweep .host w).1.settleZero.answer ⟨.started, []⟩) := by
  refine (request_withParams_some (owner := sweepStartOwner) ready read).trans ?_
  simp only [sweepStartOwner, taken]
  rfl

/-- Settles O43. -/
theorem sweepStartsOrIsRefused : Obligations.SweepStartsOrIsRefused := by
  unfold Obligations.SweepStartsOrIsRefused
  refine ⟨fun p w s t read ready isTaken => ?start, fun s => ⟨State.sweepRefusal_of_notHomed, State.sweepRefusal_of_fault,
    fun homed => ?checks⟩, fun s origin w begun _ isBegun => ⟨fun k from' planned far near skipped => ?found,
      fun skipped t isEnded => ?exhausted⟩, fun f x => LensFacts.within_iff,
    fun w n distance stride from' isDistance => ⟨by rw [isDistance]; rfl, SweepParams.stopAt_up, SweepParams.stopAt_down,
      SweepParams.stopAt_last⟩, fun p w s read ready => request_withParams_some (owner := sweepPresetOwner) ready read⟩
  case start =>
    have isTaken : t = s.takeHandoffs := isTaken
    subst isTaken
    refine ⟨rfl, State.takeHandoffs_id, fun code refused =>
      exec_sweepStart_refused read ready (State.hostSweepRefusal_of_refused refused), fun taken =>
      ⟨fun beyond => ?beyond, fun startFar startNear lastFar lastNear => ?started⟩⟩
    all_goals have checked := State.hostSweepRefusal_of_taken (w := w) taken
    case beyond =>
      have outside : ¬ ((s.takeHandoffs.resolver.record.facts.within w.start &&
          s.takeHandoffs.resolver.record.facts.within w.last) = true) := by
        rw [Bool.and_eq_true, LensFacts.within_iff, LensFacts.within_iff]
        omega
      exact exec_sweepStart_refused read ready (checked.trans (if_neg outside))
    case started =>
      have startsWithin := LensFacts.within_iff.mpr ⟨startFar, startNear⟩
      have lastWithin := LensFacts.within_iff.mpr ⟨lastFar, lastNear⟩
      have first := SweepParams.stopAt_one (sweepParams_stride read)
      rw [exec_sweepStart_started read ready (by rw [checked, startsWithin, lastWithin]; rfl),
        State.beginSweep_of_found le_rfl SweepParams.planned_pos (by rw [first]; exact startsWithin)
          (fun j from' before => absurd before (by omega)), first]
  case checks =>
    have checked := State.sweepRefusal_of_homed homed
    refine ⟨fun uncollected => ?uncollected, fun collected => ⟨fun busy => ?busy, fun idle free noSweep =>
      ⟨fun travels => ?travels, fun rests => ⟨fun unresolved => ?noLens, fun resolved => ?taken⟩⟩⟩⟩
    all_goals refine checked.trans ?_
    case uncollected => rw [if_pos uncollected]
    case busy =>
      have notFree : ¬(s.focus.state = .idle ∧ s.focus.ownership = .none ∧ s.sweep.record.state.runs = false) := by
        rintro ⟨idle, free, noSweep⟩
        obtain h | h | h := busy
        · exact h idle
        · exact h free
        · rw [SweepState.runs_iff.mpr h] at noSweep
          cases noSweep
      rw [if_neg (Bool.eq_false_iff.mp collected), if_pos notFree]
    all_goals
      have isFree : ¬¬(s.focus.state = .idle ∧ s.focus.ownership = .none ∧ s.sweep.record.state.runs = false) :=
        not_not_intro ⟨idle, free, SweepState.runs_eq_false.mpr noSweep⟩
      rw [if_neg (Bool.eq_false_iff.mp collected), if_neg isFree]
    case travels => rw [if_pos (AxisState.inTravel_iff.mpr travels)]
    all_goals rw [if_neg fun travels => rests (AxisState.inTravel_iff.mp travels)]
    case noLens => simp [unresolved]
    case taken => simp [resolved]
  case found => rw [isBegun, State.beginSweep_of_found from' planned (LensFacts.within_iff.mpr ⟨far, near⟩) skipped]
  case exhausted => rw [isEnded, isBegun, State.beginSweep_of_exhausted skipped]

end Sys2Proof.Machine
end

