-- ==== Sys2Proof/Proofs/SweepFigures.lean ====
section
/-! The contrast figures of a sweep and its deadline (R92 to R99). -/

namespace Sys2Proof.Machine

variable {s : State} {p : Bytes} {v n q : Nat}

/-! ### A figure taken (R94, R95, R96) -/

/-- The sweep record with a figure counted and compared with the best. -/
def SweepRecord.judged (r : SweepRecord) (v : Nat) : SweepRecord :=
  { r with awaiting := false, stopsJudged := r.stopsJudged + 1, lastValue := some v, best := r.better v }

/-- The figure is counted and the deadline stopped. -/
def State.figureTaken (s : State) (v : Nat) : State :=
  { s with sweep := { s.sweep with record := s.sweep.record.judged v, deadline := false } }

theorem SweepRecord.better_eq {r : SweepRecord} (number : r.stopNumber = some n) (position : r.stopPosition = some q) :
    r.better v = match r.best with
      | some b => if b.value < v then some ⟨v, q, n⟩ else some b
      | none => some ⟨v, q, n⟩ := by
  unfold SweepRecord.better
  rw [number, position]
  cases r.best <;> rfl

/-- A figure that is lower by a margin leaves the best as it is. -/
theorem SweepRecord.better_of_lower {r : SweepRecord} {b : Best} {margin : Nat} (best : r.best = some b)
    (lower : v + margin ≤ b.value) : r.better v = some b := by
  unfold SweepRecord.better
  rw [best]
  exact if_neg (by omega)

/-! ### The judgments (R94 to R97, R99) -/

theorem State.judge_of_release (release : s.sweep.record.releasePending = true) :
    s.judge v = ((s.figureTaken v).endSweep .released, .released) := if_pos release

/-- The hit of a figure is judged on the record before it. -/
theorem State.judge_of_noRelease (noRelease : s.sweep.record.releasePending = false) : s.judge v =
    if s.sweep.record.isHit v then
      (match s.sweep.record.params.condition with
        | .reach _ => ((s.figureTaken v).endSweep .hit, .hit)
        | .peak _ => (((s.figureTaken v).setSweepRecord { s.sweep.record.judged v with state := .returning }).internalMove
            .focus (((s.sweep.record.better v).map fun b => b.position).getD 0) .sweep, .hit))
    else if (s.figureTaken v).nextStop.2 then ((s.figureTaken v).nextStop.1, .nextStop)
      else ((s.figureTaken v).nextStop.1.endSweep .miss, .miss) := by
  have notReleased : ¬ (s.sweep.record.judged v).releasePending = true := Bool.eq_false_iff.mp noRelease
  refine (if_neg notReleased).trans ?_
  rfl

theorem SweepRecord.isHit_of_reach {r : SweepRecord} {threshold : Nat} (reach : r.params.condition = .reach threshold) :
    r.isHit v = decide (threshold ≤ v) := by
  rw [SweepRecord.isHit, reach]

theorem SweepRecord.isHit_of_peak {r : SweepRecord} {margin : Nat} {b : Best} (peak : r.params.condition = .peak margin)
    (best : r.best = some b) : r.isHit v = decide (v + margin ≤ b.value) := by
  rw [SweepRecord.isHit, peak, best]

theorem SweepRecord.isHit_of_peak_first {r : SweepRecord} {margin : Nat} (peak : r.params.condition = .peak margin)
    (first : r.best = none) : r.isHit v = false := by
  rw [SweepRecord.isHit, peak, first]

theorem SweepRecord.isHit_eq_false {r : SweepRecord}
    (notReached : ∀ threshold, r.params.condition = .reach threshold → v < threshold)
    (notPassed : ∀ margin b, r.params.condition = .peak margin → r.best = some b → b.value < v + margin) :
    r.isHit v = false := by
  cases condition : r.params.condition with
  | reach threshold =>
    rw [SweepRecord.isHit_of_reach condition]
    exact decide_eq_false (Nat.not_le.mpr (notReached threshold condition))
  | peak margin =>
    cases best : r.best with
    | none => exact SweepRecord.isHit_of_peak_first condition best
    | some b =>
      rw [SweepRecord.isHit_of_peak condition best]
      exact decide_eq_false (Nat.not_le.mpr (notPassed margin b condition best))

theorem State.judge_of_reach {threshold : Nat} (noRelease : s.sweep.record.releasePending = false)
    (reach : s.sweep.record.params.condition = .reach threshold) (reached : threshold ≤ v) :
    s.judge v = ((s.figureTaken v).endSweep .hit, .hit) := by
  have hit : s.sweep.record.isHit v = true := by rw [SweepRecord.isHit_of_reach reach, decide_eq_true reached]
  rw [State.judge_of_noRelease noRelease, if_pos hit, reach]

theorem State.judge_of_peak {margin : Nat} {b : Best} (noRelease : s.sweep.record.releasePending = false)
    (peak : s.sweep.record.params.condition = .peak margin) (best : s.sweep.record.best = some b)
    (passed : v + margin ≤ b.value) : s.judge v =
      (((s.figureTaken v).setSweepRecord { s.sweep.record.judged v with state := .returning }).internalMove .focus
        b.position .sweep, .hit) := by
  have hit : s.sweep.record.isHit v = true := by rw [SweepRecord.isHit_of_peak peak best, decide_eq_true passed]
  rw [State.judge_of_noRelease noRelease, if_pos hit, peak, SweepRecord.better_of_lower best passed]
  rfl

theorem State.judge_of_noHit (noRelease : s.sweep.record.releasePending = false) (noHit : s.sweep.record.isHit v = false) :
    s.judge v = if (s.figureTaken v).nextStop.2 then ((s.figureTaken v).nextStop.1, .nextStop)
      else ((s.figureTaken v).nextStop.1.endSweep .miss, .miss) := by
  rw [State.judge_of_noRelease noRelease, if_neg (Bool.eq_false_iff.mp noHit)]

/-! ### SWEEP_CONTRAST and the deadline -/

theorem exec_sweepContrast_judged (read : contrastParam p = some v) (ready : s.ready)
    (awaited : s.sweep.record.state = .awaiting) (number : s.sweep.record.stopNumber = some n) {t : State} {j : Judgment}
    (judged : s.judge v = (t, j)) :
    exec (.sweepContrast p) s = .next (t.settleZero.answer ⟨.done, u16 n ++ u8 j.code⟩) := by
  refine (request_withParams_some (owner := sweepContrastOwner) ready read).trans ?_
  rw [sweepContrastOwner, if_pos awaited, judged, number]
  rfl

theorem exec_sweepContrast_notAwaited (read : contrastParam p = some v) (ready : s.ready)
    (notAwaited : s.sweep.record.state ≠ .awaiting) :
    exec (.sweepContrast p) s = .next (s.answer ⟨.notAwaiting, []⟩) := by
  refine (request_withParams_some (owner := sweepContrastOwner) ready read).trans ?_
  rw [sweepContrastOwner, if_neg notAwaited]
  rfl

/-- Settles O44. -/
theorem contrastFigureIsJudged : Obligations.ContrastFigureIsJudged := by
  unfold Obligations.ContrastFigureIsJudged
  intro s u r w n q isRecord
  subst isRecord
  refine ⟨fun notAwaited ready v read => exec_sweepContrast_notAwaited read ready notAwaited,
    fun awaited deadline => if_pos ⟨deadline, awaited⟩,
    fun p v awaited ready read number position isJudged isTaken => ?_⟩
  have judged : w = s.sweep.record.judged v := by
    rw [isJudged, SweepRecord.judged, SweepRecord.better_eq number position] <;> rfl
  subst judged
  have taken : u = s.figureTaken v := isTaken
  subst taken
  refine ⟨fun release => ?released, fun noRelease => ⟨fun threshold reach reached => ?reached,
    fun margin b peak best passed _ => ?passed, fun notReached notPassed => ?noHit⟩⟩
  case released => exact exec_sweepContrast_judged read ready awaited number (State.judge_of_release release)
  case reached => exact exec_sweepContrast_judged read ready awaited number (State.judge_of_reach noRelease reach reached)
  case passed =>
    exact exec_sweepContrast_judged read ready awaited number (State.judge_of_peak noRelease peak best passed)
  case noHit =>
    have judged := State.judge_of_noHit noRelease (SweepRecord.isHit_eq_false notReached notPassed)
    have atStop : (s.figureTaken v).sweep.record.stopNumber.getD 0 = n := congrArg (fun x => x.getD 0) number
    refine ⟨fun k after planned far near skipped => ?nextStop, fun skipped => ?missed⟩
    case nextStop =>
      rw [State.nextStop_of_found atStop after planned (LensFacts.within_iff.mpr ⟨far, near⟩) skipped, if_pos rfl] at judged
      rw [exec_sweepContrast_judged read ready awaited number judged, Nat.sub_sub]
      rfl
    case missed =>
      rw [State.nextStop_of_exhausted atStop skipped, if_neg Bool.false_ne_true] at judged
      exact exec_sweepContrast_judged read ready awaited number judged

end Sys2Proof.Machine
end

