-- ==== Sys2Proof/Proofs/SweepEnds.lean ====
section
/-! The end of a focus sweep (R61, R100, R101), its outcome at the release (R154, R155), and the release of a pin (R36, R38,
R167). -/

namespace Sys2Proof.Machine

variable {s : State} {o : SweepOutcome}

/-! ### AXIS_STOP on FOCUS while a sweep runs (R61, R100) -/

theorem State.stopAxis_sweep (s : State) (a : AxisId) : (s.stopAxis a).sweep = s.sweep := by
  cases state : (s.axis a).state
  case unhomed | idle | fault | settling | waking => simp [State.stopAxis, state]
  case moving | homing =>
    simp only [State.stopAxis, state]
    split_ifs <;> simp
  case waitMap =>
    simp only [State.stopAxis, state]
    split
    · exact State.sweep_of_others (State.zoomEndWait_others s .stopped)
    · rfl

theorem axisParam_focus : axisParam [1#8] = some .focus := rfl

/-- The stop is handed to the unit, and posted if the host began the sweep. -/
theorem exec_axisStop_of_sweep (ready : s.ready) (runs : s.sweep.record.state.runs = true) : exec (.axisStop [1#8]) s =
    .next ((s.stopAxis .focus).stopSweep.settleZero.answer
      ⟨if s.sweep.record.origin = .host then .started else .done, []⟩) := by
  have stops : s.stopsSweep .focus = true := runs
  rw [exec_axisStop axisParam_focus ready, State.stopMove, if_pos stops, State.stopStarted, if_pos stops]
  simp only [decide_eq_true_eq]

theorem State.stopSweep_of_travelling {r : SweepRecord} (isRecord : s.sweep.record = r)
    (travels : r.state ∈ [.travelling, .returning]) :
    s.stopSweep = { s with sweep := { s.sweep with record := { r with state := .stopping } } } := by
  subst isRecord
  rw [List.mem_pair] at travels
  unfold State.stopSweep
  obtain h | h := travels <;> rw [h] <;> rfl

theorem State.stopSweep_of_stopping (stops : s.sweep.record.state = .stopping) : s.stopSweep = s := by
  unfold State.stopSweep
  rw [stops]

theorem State.stopSweep_of_awaiting (awaits : s.sweep.record.state = .awaiting) : s.stopSweep = s.endSweep .stopped := by
  unfold State.stopSweep
  rw [awaits]

/-! ### The end of a sweep (R101) -/

theorem State.closeSweep_sweep (s : State) (o : SweepOutcome) : (s.closeSweep o).sweep = { s.sweep with
    record := { s.sweep.record with awaiting := false, state := .ended, outcome := some o }, deadline := false } :=
  State.sweep_of_others (State.releasePin_others _ .sweep)

theorem SweepOutcome.completion_eq (o : SweepOutcome) : o.completion = match o with
    | .hit => .sweepHit | .miss => .sweepMiss | .overrun => .sweepOverrun | .released => .stopped
    | .stopped => .stopped := by
  cases o <;> rfl

theorem State.endSweep_of_host (host : s.sweep.record.origin = .host) : s.endSweep o = (s.closeSweep o).setAxis .focus
    ((s.closeSweep o).focus.post o.completion (s.closeSweep o).focus.position (some s.sweep.record.summary)) := by
  unfold State.endSweep
  rw [host]
  dsimp only
  rw [State.closeSweep_sweep]
  rfl

theorem State.endSweep_of_half (half : s.sweep.record.origin = .half) :
    s.endSweep o = (s.closeSweep o).sweepOutcomeNotice o := by
  unfold State.endSweep
  rw [half]

/-! ### The outcome at the release (R154, R155) -/

/-- PREPARING with nothing left to wait for becomes READY (R154). -/
theorem Release.readyIfDone_eq (q : Release) : q.readyIfDone = { q with
    state := if q.state = .preparing ∧ q.sweepOwed = false ∧ q.lockAwaited = false then .ready else q.state } := by
  unfold Release.readyIfDone
  split <;> rfl

/-- The release with an owed outcome recorded, and no full press waiting for it. -/
def Release.told (r : Release) (o : SweepOutcome) : Release :=
  { r with sweepOutcome := some (.ended o), sweepOwed := false, awaitingFocus := false }

theorem State.sweepOutcomeNotice_of_notOwed (notOwed : s.release.sweepOwed = false) :
    s.sweepOutcomeNotice o = { s with release := s.release.readyIfDone } :=
  if_neg (Bool.eq_false_iff.mp notOwed)

theorem State.sweepOutcomeNotice_of_owed (owed : s.release.sweepOwed = true) (noPress : s.release.awaitingFocus = false) :
    s.sweepOutcomeNotice o = { s with release := (s.release.told o).readyIfDone } := by
  have same : s.release.told o = { s.release with sweepOutcome := some (.ended o), sweepOwed := false } := by
    rw [Release.told, ← noPress]
  rw [same, State.sweepOutcomeNotice, if_pos owed]
  simp only [State.setRelease_release, noPress, Bool.false_eq_true, if_false]
  rfl

theorem State.sweepOutcomeNotice_of_press (owed : s.release.sweepOwed = true) (press : s.release.awaitingFocus = true) :
    s.sweepOutcomeNotice o =
      (let u := if o = .hit then ({ s with release := s.release.told o } : State).armBurst
        else { s with release := (s.release.told o).refuseArm .notFocused }
      { u with release := u.release.readyIfDone }) := by
  rw [State.sweepOutcomeNotice, if_pos owed]
  simp only [State.setRelease_release, press, if_true]
  rfl

/-- Settles O45. -/
theorem sweepEndReleasesFocusAndPin : Obligations.SweepEndReleasesFocusAndPin := by
  unfold Obligations.SweepEndReleasesFocusAndPin
  refine ⟨fun s closed o r isRecord isClosed => ?_, fun s o r told done isRelease isTold isDone => ?_⟩
  · have isClosed : closed = s.closeSweep o := by rw [isClosed, isRecord]; rfl
    subst isRecord isClosed
    refine ⟨fun host => ?host, State.endSweep_of_half, fun ready => ⟨fun travels => ?travels, fun stops => ?stops,
      fun awaits idle => ?awaits⟩⟩
    case host => rw [State.endSweep_of_host host, SweepOutcome.completion_eq] <;> rfl
    case travels =>
      have runs := SweepState.runs_iff.mpr (show s.sweep.record.state ∈ [.travelling, .awaiting, .returning, .stopping] by
        simp only [List.mem_pair] at travels
        obtain h | h := travels <;> simp [h])
      rw [exec_axisStop_of_sweep ready runs,
        State.stopSweep_of_travelling (congrArg SweepUnit.record (State.stopAxis_sweep s .focus)) travels,
        State.stopAxis_sweep]
    case stops =>
      rw [exec_axisStop_of_sweep ready (by rw [stops]; rfl),
        State.stopSweep_of_stopping (by rw [State.stopAxis_sweep]; exact stops)]
    case awaits =>
      rw [exec_axisStop_of_sweep ready (by rw [awaits]; rfl),
        State.stopAxis_of_still (by rw [State.axis_focus, idle]; decide), State.stopSweep_of_awaiting awaits]
  · have isTold : told = r.told o := isTold
    have isDone : ∀ q, done q = q.readyIfDone := fun q => (isDone q).trans q.readyIfDone_eq.symm
    subst isRelease isTold
    refine ⟨fun notOwed => ?notOwed, fun owed => ⟨fun noPress => ?noPress, fun press hit u isArmed => ?hit,
      fun press missed => ?missed⟩⟩
    case notOwed => rw [State.sweepOutcomeNotice_of_notOwed notOwed, isDone]
    case noPress => rw [State.sweepOutcomeNotice_of_owed owed noPress, isDone]
    case hit =>
      rw [State.sweepOutcomeNotice_of_press owed press, if_pos hit, isDone, isArmed]
    case missed =>
      rw [State.sweepOutcomeNotice_of_press owed press, if_neg missed, isDone]
      rfl

/-! ### The release of a pin (R36, R38) -/

variable {h : PinHolder}

theorem Resolver.applyPending_eq (r : Resolver) :
    r.applyPending = { r with accessory := r.pendingCode.getD r.accessory, pendingCode := none } := by
  cases pending : r.pendingCode with
  | none =>
    simp only [Resolver.applyPending, pending, Option.getD_none]
    rw [← pending]
  | some c => simp only [Resolver.applyPending, pending, Option.getD_some]

/-- The last pin is gone: the pending code comes into force and a deferred resolution is made (R38). -/
theorem State.pinsGone_eq (s : State) : s.pinsGone =
    (if s.resolver.deferred then ({ s with resolver := { s.resolver with
        accessory := s.resolver.pendingCode.getD s.resolver.accessory, pendingCode := none
        deferred := false } } : State).resolve .context
      else { s with resolver := { s.resolver with
        accessory := s.resolver.pendingCode.getD s.resolver.accessory, pendingCode := none } }).postDrain := by
  unfold State.pinsGone
  rw [Resolver.applyPending_eq]
  rfl

theorem State.releasePin_of_notHeld (notHeld : s.resolver.holdsPin h = false) : s.releasePin h = s :=
  if_neg (Bool.eq_false_iff.mp notHeld)

theorem State.releasePin_slot (held : s.resolver.slotPin = true) : s.releasePin .slot =
    (if s.resolver.sweepPin then s.setResolver { s.resolver with slotPin := false }
      else (s.setResolver { s.resolver with slotPin := false }).pinsGone).postPin :=
  if_pos (show s.resolver.holdsPin .slot = true from held)

theorem State.releasePin_sweep (held : s.resolver.sweepPin = true) : s.releasePin .sweep =
    if s.resolver.slotPin then s.setResolver { s.resolver with sweepPin := false }
      else (s.setResolver { s.resolver with sweepPin := false }).pinsGone := by
  refine (if_pos (show s.resolver.holdsPin .sweep = true from held)).trans ?_
  have others : (s.resolver.setPin .sweep false).pinned = s.resolver.slotPin := Bool.or_false _
  show (if (s.resolver.setPin .sweep false).pinned then _ else _) = _
  rw [others]
  rfl

theorem exec_pinReleaseNotice {n : Nat} (due : s.handoffs.pins = n + 1) : exec .pinReleaseNotice s =
    .next ({ s with handoffs := { s.handoffs with pins := n } } : State).shotIfDue.settleZero := by
  show execPinReleaseNotice s = _
  rw [execPinReleaseNotice, if_neg (by omega), due]
  rfl

/-- Settles O46. -/
theorem pinReleaseAppliesWhatWaited : Obligations.PinReleaseAppliesWhatWaited := by
  unfold Obligations.PinReleaseAppliesWhatWaited
  refine ⟨fun s u h held other r isHeld isOther isLeft => ⟨fun notHeld => ?notHeld, fun holds isLast => ?held⟩,
    fun s n due => ⟨fun noShot => ?noShot, fun shot => ?shot⟩⟩
  case notHeld =>
    refine State.releasePin_of_notHeld ?_
    rw [← notHeld, isHeld]
    cases h <;> rfl
  case held =>
    subst isHeld isOther isLeft isLast
    cases h
    case slot =>
      rw [State.releasePin_slot holds]
      by_cases other : s.resolver.sweepPin = true
      · simp only [if_pos other]
        rfl
      · simp only [if_neg other, State.pinsGone_eq]
        rfl
    case sweep =>
      rw [State.releasePin_sweep holds]
      by_cases other : s.resolver.slotPin = true
      · simp only [if_pos other]
        rfl
      · simp only [if_neg other, State.pinsGone_eq]
        rfl
  case noShot =>
    rw [exec_pinReleaseNotice due, State.shotIfDue, if_neg (by exact Bool.eq_false_iff.mp noShot)]
  case shot =>
    rw [exec_pinReleaseNotice due, State.shotIfDue, if_pos (by exact shot)]
    rfl

end Sys2Proof.Machine
end

