-- ==== Sys2Proof/Proofs/Metering.lean ====
section
/-! Metering (06): its requests and its triggers (R105, R109, R111 to R113, R116, R118), the ends of a zone's phases (R106,
R107) and the zones of a pass (R108, R110, R114, R119). -/

namespace Sys2Proof.Machine

variable {s : State} {m : MeterUnit}

/-! ### Triggers (R109, R111) -/

theorem MeterUnit.trigger_of_accepted {k : Trigger} (enabled : m.enabled = true) (still : m.running = false)
    (isTrigger : m.setup.trigger = k) : m.trigger k = m.begin := if_pos ⟨enabled, still, isTrigger⟩

theorem MeterUnit.trigger_of_ignored {k : Trigger} (ignored : m.enabled = false ∨ m.running = true ∨ m.setup.trigger ≠ k) :
    m.trigger k = m := by
  refine if_neg ?_
  rintro ⟨enabled, still, isTrigger⟩
  obtain h | h | h := ignored
  · exact Bool.eq_false_iff.mp h enabled
  · exact Bool.eq_false_iff.mp still h
  · exact h isTrigger

/-! ### Requests -/

theorem flagParam_flag (on : Bool) : flagParam [if on then 1#8 else 0#8] = some on := flagParam_eq_some.mpr rfl

theorem exec_meterStart (ready : s.ready) : exec (.meterStart []) s =
    .next ((meterStartOwner () s).1.answer (meterStartOwner () s).2) :=
  request_ready (owner := withParams noParams [] meterStartOwner) ready

theorem exec_meterSetup {p : Bytes} {u : MeterSetup} (read : meterParams p = some u) (ready : s.ready) :
    exec (.meterSetup p) s = .next ((meterSetupOwner u s).1.answer (meterSetupOwner u s).2) :=
  request_withParams_some ready read

theorem exec_meterReference (ready : s.ready) (on : Bool) : exec (.meterReference [if on then 1#8 else 0#8]) s =
    .next ((meterReferenceOwner on s).1.answer (meterReferenceOwner on s).2) :=
  request_withParams_some ready (flagParam_flag on)

theorem exec_meterStop (ready : s.ready) :
    exec (.meterStop []) s = .next ((s.setMeter s.meter.stop).answer ⟨.done, []⟩) :=
  request_ready (owner := withParams noParams [] meterStopOwner) ready

/-- Settles O47. -/
theorem meteringIsSetUpAndTriggered : Obligations.MeteringIsSetUpAndTriggered := by
  unfold Obligations.MeteringIsSetUpAndTriggered
  intro s m begun isMeter isBegun
  have isBegun : begun = m.begin := isBegun
  subst isMeter isBegun
  refine ⟨fun ⟨enabled, still, isFrame⟩ => ?frame, fun ignored => ?ignored, fun ready =>
    ⟨fun p u read => ⟨fun enabled => ?setupBusy, fun disabled => ?setup⟩,
      fun on => request_withParams_some (owner := meterEnableOwner) ready (flagParam_flag on),
      fun wrong => ?startWrong, fun enabled isRequest runs => ?startBusy, fun enabled isRequest still => ?start,
      fun runs => ?stop, fun still => ?stopped,
      ⟨_, fun z => mapTable_get _ _ z, request_ready (owner := withParams noParams [] meterClearOwner) ready⟩,
      fun on => ⟨fun runs => ?referenceBusy, fun still => ?reference⟩⟩⟩
  case frame =>
    show Host.Outcome.next (s.setMeter (s.meter.trigger .frame)) = _
    rw [MeterUnit.trigger_of_accepted enabled still isFrame]
    rfl
  case ignored =>
    show Host.Outcome.next (s.setMeter (s.meter.trigger .frame)) = _
    rw [MeterUnit.trigger_of_ignored ignored]
    rfl
  case setupBusy =>
    rw [exec_meterSetup read ready, meterSetupOwner, if_pos enabled]
    rfl
  case setup =>
    rw [exec_meterSetup read ready, meterSetupOwner, if_neg (Bool.eq_false_iff.mp disabled)]
    rfl
  case startWrong =>
    rw [exec_meterStart ready, meterStartOwner, if_pos wrong]
    rfl
  case startBusy =>
    rw [exec_meterStart ready, meterStartOwner, if_neg (by simp [enabled, isRequest]), if_pos runs]
    rfl
  case start =>
    rw [exec_meterStart ready, meterStartOwner, if_neg (by simp [enabled, isRequest]),
      if_neg (Bool.eq_false_iff.mp still)]
    rfl
  case stop =>
    rw [exec_meterStop ready, MeterUnit.stop, if_pos runs]
    rfl
  case stopped =>
    rw [exec_meterStop ready, MeterUnit.stop, if_neg (Bool.eq_false_iff.mp still)]
    rfl
  case referenceBusy =>
    rw [exec_meterReference ready, meterReferenceOwner, if_pos runs]
    rfl
  case reference =>
    rw [exec_meterReference ready, meterReferenceOwner, if_neg (Bool.eq_false_iff.mp still)]
    rfl

/-! ### The ends of a zone's phases (R106, R107) -/

variable {w : Working} {z : Fin 8} {phase : Phase}

theorem MeterUnit.inPhase_eq_some (runs : m.running = true) (working : m.working = some w) (zone : m.zone = some z)
    (inPhase : m.phase = some phase) : m.inPhase phase = some (w, z) := by
  rw [MeterUnit.inPhase, if_pos ⟨runs, inPhase⟩, working, zone]

theorem exec_referenceTargetReached {t : Nat} (at' : s.meter.inPhase .reference = some (w, z)) (positive : 1 ≤ t)
    (below : t < 1048575) : exec (.referenceTargetReached t) s =
      if s.meter.reference then .next (({ s with
        meter := { s.meter with counter := w.target, timeBase := t } } : State).zoneMeasured w z ⟨.ref, some t⟩)
      else .next { s with
        meter := { s.meter with counter := 0, timeBase := t, phase := some .sensor, referenceTime := some t } } := by
  show execReferenceTargetReached t s = _
  unfold execReferenceTargetReached
  rw [at']
  exact if_pos ⟨positive, below⟩

theorem exec_timeBaseExhausted {pulses : Nat} (at' : s.meter.inPhase .reference = some (w, z)) (within : pulses ≤ w.target) :
    exec (.timeBaseExhausted pulses) s = .next (({ s with
      meter := { s.meter with counter := pulses, timeBase := 1048575 } } : State).zoneMeasured w z ⟨.refFault, none⟩) := by
  show execTimeBaseExhausted pulses s = _
  unfold execTimeBaseExhausted
  rw [at']
  exact if_pos within

theorem exec_sensorPhaseEnd {pulses : Nat} (at' : s.meter.inPhase .sensor = some (w, z)) :
    exec (.sensorPhaseEnd pulses) s = .next (({ s with
      meter := { s.meter with counter := min pulses 16777216 } } : State).zoneMeasured w z
        (judgeCount (min pulses 16777216))) := by
  show execSensorPhaseEnd pulses s = _
  unfold execSensorPhaseEnd
  rw [at']
  rfl

/-- An OK count between two powers of two (R107). -/
theorem judgeCount_ok {count k : Nat} (enough : 16 ≤ count) (fits : count ≤ 16777215) (low : 2 ^ k ≤ count)
    (high : count < 2 ^ (k + 1)) : judgeCount count = ⟨.ok, some (16 * k + (count - 2 ^ k) / 2 ^ (k - 4))⟩ := by
  have leading : count.log2 = k := (Nat.log2_eq_iff (by omega)).mpr ⟨low, high⟩
  rw [judgeCount, if_neg (Nat.not_lt.mpr fits), if_pos enough, okValue, leading]

theorem judgeCount_under {count : Nat} (few : count < 16) : judgeCount count = ⟨.under, none⟩ := by
  rw [judgeCount, if_neg (by omega), if_neg (by omega)]

/-! ### A zone measured (R108, R110, R114, R119) -/

/-- The unit with the zone's record written (R108). -/
def MeterUnit.written (m : MeterUnit) (z : Fin 8) (r : ZoneResult) : MeterUnit :=
  { m with zones := put m.zones z ((m.zones[z]).write r) }

theorem MeterUnit.written_eq {r : ZoneResult} {zones : Vector ZoneRecord 8}
    (isWritten : ∀ y : Fin 8, zones[y] = if y = z then ⟨r, true, (m.zones[z]).overwritten || (m.zones[z]).fresh⟩
      else m.zones[y]) : m.written z r = { m with zones := zones } := by
  have same : put m.zones z ((m.zones[z]).write r) = zones := table_ext fun y => by
    rw [put_get, isWritten]
    exact if_congr eq_comm rfl rfl
  rw [MeterUnit.written, same]

theorem State.zoneMeasured_of_next {r : ZoneResult} {next : Fin 8} (more : z < w.last) (isNext : next.val = z.val + 1) :
    s.zoneMeasured w z r = s.setMeter ((s.meter.written z r).beginZone next) := by
  have isNext : ⟨z.val + 1, by omega⟩ = next := Fin.ext isNext.symm
  refine (dif_pos more).trans ?_
  rw [isNext]
  rfl

theorem State.zoneMeasured_of_last {r : ZoneResult} (last : w.last ≤ z) : s.zoneMeasured w z r =
    if (s.meter.written z r).reference then s.setMeter ((s.meter.written z r).afterPass w)
    else (s.setMeter ((s.meter.written z r).afterPass w)).postScene ((s.meter.written z r).passResults w) :=
  dif_neg (Fin.not_lt.mpr last)

theorem MeterUnit.passResults_eq {results : Vector ZoneResult 8}
    (isResults : ∀ y : Fin 8, results[y] = if w.first ≤ y ∧ y ≤ w.last then (m.zones[y]).result else ⟨.none, none⟩) :
    m.passResults w = results :=
  table_ext fun y => by
    rw [isResults]
    simp only [MeterUnit.passResults, Fin.getElem_fin, Vector.getElem_ofFn]

/-- Settles O48. -/
theorem zonePhasesEnd : Obligations.ZonePhasesEnd := by
  unfold Obligations.ZonePhasesEnd
  refine ⟨fun s w z runs working zone => ⟨fun t inPhase positive below => ?reached, fun pulses inPhase within => ?exhausted,
    fun pulses inPhase => ?sensor⟩, fun s w z r zones m isWritten isMeter => ?measured⟩
  case reached =>
    have reached := exec_referenceTargetReached (MeterUnit.inPhase_eq_some runs working zone inPhase) positive below
    exact ⟨fun noReference => reached.trans (if_neg (Bool.eq_false_iff.mp noReference)),
      fun reference => reached.trans (if_pos reference)⟩
  case exhausted => exact exec_timeBaseExhausted (MeterUnit.inPhase_eq_some runs working zone inPhase) within
  case sensor =>
    rw [exec_sensorPhaseEnd (MeterUnit.inPhase_eq_some runs working zone inPhase)]
    refine ⟨fun saturated => ?saturated, fun few => ?few, fun k enough fits low high => ?ok⟩
    case saturated =>
      rw [min_eq_right saturated]
      rfl
    case few => rw [min_eq_left (by omega), judgeCount_under few]
    case ok => rw [min_eq_left (by omega), judgeCount_ok enough fits low high]
  case measured =>
    have written : s.meter.written z r = m := (MeterUnit.written_eq isWritten).trans isMeter.symm
    refine ⟨fun next more isNext => ?next, fun last pass results isPass isResults => ?pass⟩
    case next =>
      rw [State.zoneMeasured_of_next more isNext, written]
      rfl
    case pass =>
      have isPass : pass = m.afterPass w := isPass
      have isZones : m.zones = zones := by rw [isMeter]
      have handed : m.passResults w = results := MeterUnit.passResults_eq (by rw [isZones]; exact isResults)
      rw [State.zoneMeasured_of_last last, written, ← isPass, handed]
      exact ⟨fun reference => if_pos reference, fun noReference => if_neg (Bool.eq_false_iff.mp noReference)⟩

end Sys2Proof.Machine
end

