-- ==== Sys2Proof/Proofs/SceneAndLock.lean ====
section
/-! The scene of a pass and the AE lock (R123 to R127). -/

namespace Sys2Proof.Machine

variable {s : State}

/-! ### The scene (R123, R124) -/

/-- The brightness is the weighted mean of the counted zones, if any weight counts (R123). -/
theorem ExposureUnit.newScene_eq {e : ExposureUnit} {zones : Vector ZoneResult 8} {r : LensRecord} {weight sum : Nat}
    (sums : weightedSums e.setup.weights zones = (weight, sum)) : e.newScene zones r =
      if weight = 0 then ⟨none, false, (e.scene.sweepCount + 1) % 65536⟩
      else ⟨some ⟨sum / weight, if r.resolved then r.facts.loss else 0,
          ((sum / weight : Nat) : Int) - (if r.resolved then r.facts.loss else 0 : Nat) + e.setup.compensation⟩,
        !r.resolved, (e.scene.sweepCount + 1) % 65536⟩ := by
  unfold ExposureUnit.newScene brightness
  rw [sums]
  by_cases noWeight : weight = 0
  · simp only [noWeight, lt_irrefl, if_false, if_true]
  · simp only [noWeight, Nat.pos_of_ne_zero noWeight, if_false, if_true]

/-! ### A pass taken (R127, R154) -/

theorem ExposureUnit.fillLock_of_notPending {e : ExposureUnit} (kept : e.lock ≠ .pending ∨ e.scene.figures = none) :
    e.fillLock = (e, false) := by
  unfold ExposureUnit.fillLock
  split
  next isPending hasFigures =>
    obtain h | h := kept
    · exact absurd isPending h
    · rw [h] at hasFigures
      cases hasFigures
  next => rfl

theorem ExposureUnit.fillLock_of_pending {e : ExposureUnit} {f : Brightness} (pending : e.lock = .pending)
    (figures : e.scene.figures = some f) :
    e.fillLock = ({ e with lock := .held f.ev e.scene.uncorrected }, true) := by
  rw [ExposureUnit.fillLock, pending, figures]

theorem State.takePass_of_kept {zones : Vector ZoneResult 8} {scene : Scene}
    (isScene : s.exposure.newScene zones s.resolver.record = scene)
    (kept : s.exposure.lock ≠ .pending ∨ scene.figures = none) :
    s.takePass zones = { s with exposure := { s.exposure with scene := scene } } := by
  unfold State.takePass
  rw [isScene]
  dsimp only
  rw [ExposureUnit.fillLock_of_notPending (by exact kept)]
  rfl

theorem State.takePass_of_filled {zones : Vector ZoneResult 8} {scene : Scene} {f : Brightness}
    (isScene : s.exposure.newScene zones s.resolver.record = scene) (pending : s.exposure.lock = .pending)
    (figures : scene.figures = some f) : s.takePass zones =
      ({ s with exposure := { s.exposure with scene := scene, lock := .held f.ev scene.uncorrected } } :
        State).lockFilledNotice := by
  unfold State.takePass
  rw [isScene]
  dsimp only
  rw [ExposureUnit.fillLock_of_pending (by exact pending) (by exact figures)]
  rfl

/-- The release hears of a lock that has been filled (R154). -/
theorem State.lockFilledNotice_eq (s : State) : s.lockFilledNotice = { s with release := { s.release with
    lockAwaited := false
    state := if s.release.state = .preparing ∧ s.release.sweepOwed = false then .ready else s.release.state } } := by
  rw [State.lockFilledNotice, Release.readyIfDone_eq]
  simp only [and_true]
  rfl

theorem exec_sceneCompute {zones : Vector ZoneResult 8} {rest : List (Vector ZoneResult 8)}
    (flight : s.handoffs.scenes = zones :: rest) : exec .sceneCompute s =
      .next (({ s with handoffs := { s.handoffs with scenes := rest } } : State).takePass zones) := by
  show execSceneCompute s = _
  rw [execSceneCompute, flight]
  rfl

/-! ### AE_LOCK (R126) -/

theorem exec_aeLock (ready : s.ready) : exec (.aeLock []) s =
    .next ((s.setExposure { s.exposure with lock := s.exposure.scene.toLock }).answer ⟨.done, s.exposure.scene.toLock.bytes⟩) :=
  request_ready (owner := withParams noParams [] aeLockOwner) ready

/-- Settles O49. -/
theorem sceneIsComputedAndLocked : Obligations.SceneIsComputedAndLocked := by
  unfold Obligations.SceneIsComputedAndLocked
  refine ⟨fun s zones rest flight => exec_sceneCompute flight,
    fun s zones e r weight sum scene isUnit isRecord isWeight isSum isScene => ?pass,
    fun s ready => ⟨fun f figures => ?held, fun noFigures => ?waits,
      request_ready (owner := withParams noParams [] aeUnlockOwner) ready,
      fun p u read => request_withParams_some (owner := exposureSetupOwner) ready read⟩⟩
  case pass =>
    subst isUnit isRecord
    have sums : weightedSums s.exposure.setup.weights zones = (weight, sum) := by
      rw [isWeight, isSum]
      exact weightedSums_eq _ _
    have isNew : s.exposure.newScene zones s.resolver.record = scene :=
      (ExposureUnit.newScene_eq sums).trans isScene.symm
    refine ⟨fun kept => State.takePass_of_kept isNew (kept.imp_right fun noWeight => ?noFigures),
      fun f pending figures => ?filled⟩
    case noFigures => rw [isScene, if_pos noWeight]
    case filled => rw [State.takePass_of_filled isNew pending figures, State.lockFilledNotice_eq]
  case held =>
    rw [exec_aeLock ready, Scene.toLock, figures]
    rfl
  case waits =>
    rw [exec_aeLock ready, Scene.toLock, noFigures]
    rfl

end Sys2Proof.Machine
end

