-- ==== Sys2Proof/Proofs/ProgramAndSolve.lean ====
section
/-! The exposure program written in parts (R128, R129) and the solve (R130 to R133). -/

namespace Sys2Proof.Machine

variable {s : State} {e : ExposureUnit} {part : ProgramPart}

/-! ### The checks of a part (R129) -/

/-- The checks of a part for itself: its total, its first point number, its size and its ranges. -/
def ProgramPart.sound (part : ProgramPart) : Prop :=
  part.total ≤ 12 ∧ 1 ≤ part.first ∧
    ((part.total = 0 ∧ part.first = 1 ∧ part.points = []) ∨
      (part.total ≠ 0 ∧ 1 ≤ part.points.length ∧ part.points.length ≤ 6)) ∧
    ∀ x ∈ part.points, -64 ≤ x.evFrom ∧ x.evFrom ≤ 511 ∧ 20 ≤ x.settings.time ∧ x.settings.time ≤ 8000000 ∧
      x.settings.iris ≤ 63 ∧ x.settings.gain ≤ 96

/-- A part starts a program, or follows what is staged. -/
def ExposureUnit.mayFollow (e : ExposureUnit) (part : ProgramPart) : Prop :=
  part.first = 1 ∨ ∃ g, e.staging = some g ∧ g.total = part.total ∧ part.first = g.points.length + 1

/-- The points staged before a part that may follow them. -/
def ExposureUnit.pointsBefore (e : ExposureUnit) (part : ProgramPart) : List Point :=
  if part.first = 1 then [] else (e.staging.map fun g => g.points).getD []

theorem Point.inRange_iff {x : Point} : x.inRange = true ↔ -64 ≤ x.evFrom ∧ x.evFrom ≤ 511 ∧ 20 ≤ x.settings.time ∧
    x.settings.time ≤ 8000000 ∧ x.settings.iris ≤ 63 ∧ x.settings.gain ≤ 96 := by
  simp [Point.inRange, Settings.inRange, and_assoc]

theorem ProgramPart.sound_iff : (part.total ≤ 12 ∧ 1 ≤ part.first ∧
    (if part.total = 0 then decide (part.first = 1 ∧ part.points = [])
      else decide (1 ≤ part.points.length ∧ part.points.length ≤ 6)) = true ∧
    part.points.all Point.inRange = true) ↔ part.sound := by
  simp only [ProgramPart.sound, List.all_eq_true, Point.inRange_iff]
  by_cases empty : part.total = 0 <;> simp [empty]

theorem ExposureUnit.stagedBefore_of_follows (follows : e.mayFollow part) :
    e.stagedBefore part = some (e.pointsBefore part) := by
  unfold ExposureUnit.stagedBefore ExposureUnit.pointsBefore
  by_cases first : part.first = 1
  · rw [if_pos first, if_pos first]
  · obtain ⟨g, staged, total, next⟩ := follows.resolve_left first
    rw [if_neg first, if_neg first, staged]
    exact if_pos ⟨total, next⟩

theorem ExposureUnit.stagedBefore_of_not_follows (notFollows : ¬ e.mayFollow part) : e.stagedBefore part = none := by
  obtain ⟨notFirst, notNext⟩ := not_or.mp notFollows
  unfold ExposureUnit.stagedBefore
  rw [if_neg notFirst]
  cases staged : e.staging with
  | none => rfl
  | some g => exact if_neg fun ⟨total, next⟩ => notNext ⟨g, staged, total, next⟩

/-- A part that passes every check is staged after what came before it. -/
theorem ExposureUnit.stagePart_of_sound (sound : part.sound) : e.stagePart part =
    match e.stagedBefore part with
    | some before =>
      if (before ++ part.points).length ≤ part.total ∧ rising (before ++ part.points) = true
      then some (before ++ part.points) else none
    | none => none :=
  if_pos (ProgramPart.sound_iff.mpr sound)

theorem ExposureUnit.stagePart_of_unsound (unsound : ¬ part.sound) : e.stagePart part = none :=
  if_neg fun checks => unsound (ProgramPart.sound_iff.mp checks)

/-- The points of the program with the part, in the length of its total and rising. -/
def ExposureUnit.fits (e : ExposureUnit) (part : ProgramPart) : Prop :=
  (e.pointsBefore part ++ part.points).length ≤ part.total ∧
    List.IsChain (fun x y : Point => x.evFrom < y.evFrom) (e.pointsBefore part ++ part.points)

theorem ExposureUnit.stagePart_eq_some (sound : part.sound) (follows : e.mayFollow part) (fits : e.fits part) :
    e.stagePart part = some (e.pointsBefore part ++ part.points) := by
  obtain ⟨short, rises⟩ := fits
  rw [ExposureUnit.stagePart_of_sound sound, ExposureUnit.stagedBefore_of_follows follows]
  exact if_pos ⟨short, (rising_iff _).mpr rises⟩

theorem ExposureUnit.stagePart_eq_none (fails : ¬ (part.sound ∧ e.mayFollow part ∧ e.fits part)) :
    e.stagePart part = none := by
  by_cases sound : part.sound
  · rw [ExposureUnit.stagePart_of_sound sound]
    by_cases follows : e.mayFollow part
    · rw [ExposureUnit.stagedBefore_of_follows follows]
      exact if_neg fun ⟨short, rises⟩ => fails ⟨sound, follows, short, (rising_iff _).mp rises⟩
    · rw [ExposureUnit.stagedBefore_of_not_follows follows]
  · exact ExposureUnit.stagePart_of_unsound sound

/-! ### PROGRAM_WRITE (R129) -/

theorem exec_programWrite_refused {p : Bytes} (read : programParams p = some part) (ready : s.ready)
    (fails : s.exposure.stagePart part = none) : exec (.programWrite p) s =
      .next (({ s with exposure := { s.exposure with staging := none } } : State).answer ⟨.badParameter, []⟩) := by
  refine (request_withParams_some (owner := programWriteOwner) ready read).trans ?_
  rw [programWriteOwner, fails]
  rfl

theorem exec_programWrite_taken {p : Bytes} {all : List Point} (read : programParams p = some part) (ready : s.ready)
    (staged : s.exposure.stagePart part = some all) : exec (.programWrite p) s =
      .next ((s.setExposure (s.exposure.takePart part.total all).1).answer
        ⟨.done, (s.exposure.takePart part.total all).2⟩) := by
  refine (request_withParams_some (owner := programWriteOwner) ready read).trans ?_
  rw [programWriteOwner, staged]
  rfl

theorem ExposureUnit.takePart_of_complete {total : Nat} {all : List Point} (complete : all.length = total) :
    e.takePart total all = ({ e with program := all, staging := none }, [BitVec.ofNat 8 all.length, 1#8]) :=
  if_pos complete

theorem ExposureUnit.takePart_of_incomplete {total : Nat} {all : List Point} (incomplete : all.length ≠ total) :
    e.takePart total all = ({ e with staging := some ⟨total, all⟩ }, [BitVec.ofNat 8 all.length, 0#8]) :=
  if_neg incomplete

/-! ### The solve (R130 to R133) -/

/-- The EV, the UNCORRECTED mark and the LOCKED mark that a solve works from, in the words of R130. -/
theorem ExposureUnit.chooseEv_eq {locked uncorrected : Bool} {ev : Option Int}
    (source : match e.lock with
      | .held v u => ev = some v ∧ uncorrected = u ∧ locked = true
      | _ => ev = e.scene.figures.map (fun f => f.ev) ∧
        uncorrected = (e.scene.figures.isSome && e.scene.uncorrected) ∧ locked = false) :
    e.chooseEv.1.map (fun x => x.1) = ev ∧ (e.chooseEv.1.map fun x => x.2).getD false = uncorrected ∧
      e.chooseEv.2 = locked := by
  unfold ExposureUnit.chooseEv
  split at source
  next lock =>
    obtain ⟨rfl, rfl, rfl⟩ := source
    rw [lock]
    exact ⟨rfl, rfl, rfl⟩
  next notHeld =>
    obtain ⟨rfl, rfl, rfl⟩ := source
    cases lock : e.lock with
    | held v u => exact absurd lock (notHeld v u)
    | none => cases e.scene.figures <;> simp
    | pending => cases e.scene.figures <;> simp

theorem choosePoint_eq_none {program : List Point} {v : Int} (above : ∀ x ∈ program, v < x.evFrom) :
    choosePoint program v = none := by
  have noneReached : (program.zipIdx 1).filter (fun q => decide (q.1.evFrom ≤ v)) = [] := by
    rw [List.filter_eq_nil_iff]
    rintro ⟨x, i⟩ placed
    simpa using above x (List.fst_mem_of_mem_zipIdx placed)
  rw [choosePoint, noneReached]
  rfl

theorem ExposureUnit.choose_of_manual (manual : e.setup.mode = .manual) : e.choose = some (none, e.setup.manual) := by
  rw [ExposureUnit.choose, manual]

theorem ExposureUnit.choose_of_auto (auto : e.setup.mode = .auto) : e.choose =
    (e.chooseEv.1.map fun x => x.1).bind fun v => (choosePoint e.program v).map fun q => (some q.1, q.2) := by
  rw [ExposureUnit.choose, auto]
  cases e.chooseEv.1 <;> rfl

/-- The chosen settings, with the iris opened no further than the lens allows and the difference made up with gain. -/
theorem ExposureUnit.solve_of_chosen {point : Option Nat} {g : Settings} {widest : Nat}
    (chosen : e.choose = some (point, g)) : e.solve widest = some {
      solved := ⟨g.time, max g.iris widest, min (g.gain + (widest - g.iris)) 96⟩
      ev := e.chooseEv.1.map fun x => x.1, mode := e.setup.mode, point := point, chosenIris := g.iris, chosenGain := g.gain
      widestIris := widest, locked := e.chooseEv.2, uncorrected := (e.chooseEv.1.map fun x => x.2).getD false
      deficit := if 96 < g.gain + (widest - g.iris) then some (g.gain + (widest - g.iris) - 96) else none } := by
  rw [ExposureUnit.solve, chosen]
  rfl

theorem ExposureUnit.solve_of_noChoice {widest : Nat} (noChoice : e.choose = none) : e.solve widest = none := by
  rw [ExposureUnit.solve, noChoice]

/-- Settles O50. -/
theorem programIsStagedAndSolved : Obligations.ProgramIsStagedAndSolved := by
  unfold Obligations.ProgramIsStagedAndSolved
  refine ⟨fun s p part before all sound follows ready read isAll isBefore isSound isFollows => ?write,
    fun e widest locked uncorrected ev source => ?solve⟩
  case write =>
    have isBefore : before = s.exposure.pointsBefore part := isBefore
    subst isBefore isAll
    have isSound : sound ↔ part.sound := isSound
    have isFollows : follows ↔ s.exposure.mayFollow part ∧ s.exposure.fits part := isFollows
    rw [isSound, isFollows]
    refine ⟨fun fails => exec_programWrite_refused read ready (ExposureUnit.stagePart_eq_none fails),
      fun sound ⟨follows, fits⟩ complete => ?complete, fun sound ⟨follows, fits⟩ incomplete => ?incomplete⟩
    all_goals have staged := ExposureUnit.stagePart_eq_some sound follows fits
    case complete => rw [exec_programWrite_taken read ready staged, ExposureUnit.takePart_of_complete complete]; rfl
    case incomplete => rw [exec_programWrite_taken read ready staged, ExposureUnit.takePart_of_incomplete incomplete]; rfl
  case solve =>
    obtain ⟨isEv, isUncorrected, isLocked⟩ := ExposureUnit.chooseEv_eq source
    refine ⟨fun g point choice => ?chosen, fun auto noPoint => ExposureUnit.solve_of_noChoice ?noChoice⟩
    case chosen =>
      have chosen : e.choose = some (point, g) := by
        obtain ⟨manual, rfl, rfl⟩ | ⟨auto, v, isKnown, i, x, placed, reached, last, rfl, rfl⟩ := choice
        · exact ExposureUnit.choose_of_manual manual
        · rw [ExposureUnit.choose_of_auto auto, isEv, isKnown, Option.bind_some,
            choosePoint_eq_some e.program v i x placed reached last, Option.map_some]
      rw [ExposureUnit.solve_of_chosen chosen, isEv, isUncorrected, isLocked]
    case noChoice =>
      rw [ExposureUnit.choose_of_auto auto, isEv]
      cases known : ev with
      | none => rfl
      | some v =>
        have above : ∀ x ∈ e.program, v < x.evFrom :=
          (noPoint.resolve_left (by rw [known]; exact Option.some_ne_none v)) v known
        rw [Option.bind_some, choosePoint_eq_none above]
        rfl

end Sys2Proof.Machine
end

