-- ==== Sys2Proof/Proofs/StabilizerNotices.lean ====
section
/-! What the Stabilizer is told (R143), its silence (R144) and its setup (R146). -/

namespace Sys2Proof.Machine

variable {t : Stabilizer}

/-! ### Its states left and entered -/

theorem Stabilizer.enterHeld_eq (t : Stabilizer) :
    t.enterHeld = { t with state := .held, yaw := t.yaw.quieted, pitch := t.pitch.quieted } := rfl

/-- HELD is entered from a state that steadies: ACTIVE left in an open exposure leaves its mark (R143, R145). -/
theorem Stabilizer.onUnresolved_of_steadying (steadying : t.state ∈ [.centering, .active, .panning]) : t.onUnresolved = { t with
    resolved := false, state := .held, yaw := t.yaw.quieted, pitch := t.pitch.quieted
    leftActive := t.leftActive || (t.exposureOpen && decide (t.state = .active)) } := by
  have left : t.onUnresolved = ({ t with resolved := false } : Stabilizer).leaveActive.enterHeld := by
    simp only [List.mem_cons, List.not_mem_nil, or_false] at steadying
    unfold Stabilizer.onUnresolved
    obtain h | h | h := steadying <;> rw [h]
  rw [left, Stabilizer.leaveActive_eq, Stabilizer.enterHeld_eq]

theorem Stabilizer.onUnresolved_of_notSteadying (rests : t.state ∈ [.off, .held, .fault]) :
    t.onUnresolved = { t with resolved := false } := by
  simp only [List.mem_cons, List.not_mem_nil, or_false] at rests
  unfold Stabilizer.onUnresolved
  obtain h | h | h := rests <;> rw [h]

theorem Stabilizer.onLoad_of_held (held : t.state = .held) (gain : Nat) : t.onLoad gain = { t with
    gain := gain, resolved := true, state := .centering, yaw := t.yaw.atCentering, pitch := t.pitch.atCentering } :=
  if_pos held

theorem Stabilizer.onLoad_of_notHeld (notHeld : t.state ≠ .held) (gain : Nat) :
    t.onLoad gain = { t with gain := gain, resolved := true } := if_neg notHeld

/-- The gyro has been silent for too long outside OFF (R144). -/
theorem Stabilizer.silence_of_sampled (sampled : t.state ∈ [.centering, .active, .panning, .held]) : t.silence = { t with
    state := .fault, yaw := t.yaw.quieted, pitch := t.pitch.quieted
    leftActive := t.leftActive || (t.exposureOpen && decide (t.state = .active)), faultUnread := true
    silenceTimer := false } := by
  have faults : t.silence = { t.leaveActive.onBoth ShiftAxis.clearCounts with
      state := .fault, faultUnread := true, silenceTimer := false } := by
    simp only [List.mem_cons, List.not_mem_nil, or_false] at sampled
    unfold Stabilizer.silence
    obtain h | h | h | h := sampled <;> rw [h]
  rw [faults, Stabilizer.leaveActive_eq]
  rfl

/-! ### The enable item of STAB_SETUP (R146) -/

theorem Stabilizer.setEnabled_of_turnedOn (off : t.state = .off) :
    t.setEnabled true = { ({ t with enabled := true } : Stabilizer).enterByRecord with silenceTimer := true } := by
  unfold Stabilizer.setEnabled
  cases state : t.state
  case off => rfl
  all_goals exact absurd (state.symm.trans off) nofun

theorem Stabilizer.setEnabled_of_same {on : Bool} (same : on = true ↔ t.state ≠ .off) : t.setEnabled on = t := by
  unfold Stabilizer.setEnabled
  cases on
  case true =>
    cases state : t.state
    case off => exact absurd state (same.mp rfl)
    all_goals rfl
  case false =>
    have off : t.state = .off := by simpa using same
    simp only [off]

theorem Stabilizer.setEnabled_of_turnedOff (running : t.state ≠ .off) :
    t.setEnabled false = { t.leaveActive.enterOff with enabled := false } := by
  unfold Stabilizer.setEnabled
  cases state : t.state
  case off => exact absurd state running
  all_goals rfl

theorem exec_stabSetup {s : State} {p : Bytes} {on : Bool} {threshold : Nat} (read : stabParams p = some (on, threshold))
    (ready : s.ready) : exec (.stabSetup p) s =
      .next ((s.setStab (({ s.stab with panThreshold := threshold } : Stabilizer).setEnabled on)).answer ⟨.done, []⟩) :=
  request_withParams_some (owner := stabSetupOwner) ready read

/-- Settles O52. -/
theorem stabilizerIsToldSilencedAndSetUp : Obligations.StabilizerIsToldSilencedAndSetUp := by
  unfold Obligations.StabilizerIsToldSilencedAndSetUp
  intro s t rest left isStab isLeft
  subst isStab isLeft
  refine ⟨fun g => ⟨fun flight => ?load, fun held => Stabilizer.onLoad_of_held held g,
      fun notHeld => Stabilizer.onLoad_of_notHeld notHeld g⟩, fun flight => ?unresolved,
    Stabilizer.onUnresolved_of_steadying, Stabilizer.onUnresolved_of_notSteadying, fun runs sampled => ?silence,
    fun p on threshold read ready => ?setup⟩
  case load =>
    show execStabLoadNotice s = _
    rw [execStabLoadNotice, flight]
    rfl
  case unresolved =>
    show execStabUnresolvedNotice s = _
    rw [execStabUnresolvedNotice, flight]
    rfl
  case silence =>
    rw [← Stabilizer.silence_of_sampled sampled]
    exact if_pos runs
  case setup =>
    rw [exec_stabSetup read ready]
    refine ⟨fun isOn off resolved => ?centering, fun isOn off unresolved => ?held, fun same => ?same,
      fun isOff running => ?off⟩
    case centering =>
      rw [isOn, Stabilizer.setEnabled_of_turnedOn (by exact off),
        Stabilizer.enterByRecord_of_resolved (by exact resolved)]
      rfl
    case held =>
      rw [isOn, Stabilizer.setEnabled_of_turnedOn (by exact off),
        Stabilizer.enterByRecord_of_unresolved (by exact unresolved)]
      rfl
    case same =>
      rw [Stabilizer.setEnabled_of_same (by exact same)]
      rfl
    case off =>
      rw [isOff, Stabilizer.setEnabled_of_turnedOff (by exact running), Stabilizer.leaveActive_eq]
      rfl

end Sys2Proof.Machine
end

