-- ==== Sys2Proof/Proofs/SwitchLevels.lean ====
section
/-! The release switch: its levels, their debouncing, and the changes of position that they make (R152, R174, R182). -/

namespace Sys2Proof.Machine

variable {s : State} {line : SwitchLine} {closed : Bool}

/-! ### The position that the taken levels make -/

section
variable {r : Release}

theorem Release.position_of_full (full : r.fullTaken = true) : r.position = .full := if_pos full

theorem Release.position_of_half (full : r.fullTaken = false) (half : r.halfTaken = true) : r.position = .half :=
  (if_neg (Bool.eq_false_iff.mp full)).trans (if_pos half)

theorem Release.position_of_none (full : r.fullTaken = false) (half : r.halfTaken = false) : r.position = .none :=
  (if_neg (Bool.eq_false_iff.mp full)).trans (if_neg (Bool.eq_false_iff.mp half))

end

/-! ### The line and its timer -/

theorem exec_switchLineChange (changed : closed ≠ s.pins.closed line) : exec (.switchLineChange line closed) s =
    .next ((s.setPins (s.pins.setClosed line closed)).setRelease (s.release.setDebounce line true)) :=
  if_neg (Ne.symm changed)

/-- The level at the expiry is the one already taken. -/
theorem exec_switchDebounceExpiry_of_same (runs : s.release.debouncing line = true)
    (same : s.pins.closed line = (s.release.setDebounce line false).taken line) : exec (.switchDebounceExpiry line) s =
      .next (s.setRelease (s.release.setDebounce line false)) :=
  (if_pos runs).trans (if_pos same)

/-- The level at the expiry is a new one: it is taken, and the position may change by it. -/
theorem exec_switchDebounceExpiry_of_changed {t : State} (runs : s.release.debouncing line = true)
    (changed : s.pins.closed line ≠ (s.release.setDebounce line false).taken line)
    (taken : t = s.setRelease ((s.release.setDebounce line false).take line (s.pins.closed line))) :
    exec (.switchDebounceExpiry line) s =
      .next (t.positionChanged (s.release.setDebounce line false).position t.release.position).settleZero := by
  subst taken
  exact (if_pos runs).trans (if_neg changed)

/-! ### A press taken in standby -/

theorem State.pressHalf_eq (s : State) : s.pressHalf = if s.standby then ({ s.wakeUp with
    release := { s.wakeUp.release with halfTaken := true, fullTaken := false } } : State).halfPress else s.halfPress := rfl

/-! ### The expiry of a line's timer -/

section
variable {t : State} (runs : s.release.halfDebounce = true)
  (taken : t = { s with release := { s.release with halfDebounce := false, halfTaken := s.pins.halfClosed } })
include runs taken

theorem exec_halfExpiry_of_same (same : s.release.halfTaken = s.pins.halfClosed) :
    exec (.switchDebounceExpiry .half) s = .next t := by
  subst taken
  refine (exec_switchDebounceExpiry_of_same (line := .half) runs same.symm).trans ?_
  rw [← same]
  rfl

theorem exec_halfExpiry_of_changed (changed : s.release.halfTaken ≠ s.pins.halfClosed) :
    exec (.switchDebounceExpiry .half) s =
      .next (t.positionChanged s.release.position t.release.position).settleZero :=
  exec_switchDebounceExpiry_of_changed (line := .half) runs changed.symm taken

end

section
variable {t : State} (runs : s.release.fullDebounce = true)
  (taken : t = { s with release := { s.release with fullDebounce := false, fullTaken := s.pins.fullClosed } })
include runs taken

theorem exec_fullExpiry_of_same (same : s.release.fullTaken = s.pins.fullClosed) :
    exec (.switchDebounceExpiry .full) s = .next t := by
  subst taken
  refine (exec_switchDebounceExpiry_of_same (line := .full) runs same.symm).trans ?_
  rw [← same]
  rfl

theorem exec_fullExpiry_of_changed (changed : s.release.fullTaken ≠ s.pins.fullClosed) :
    exec (.switchDebounceExpiry .full) s =
      .next (t.positionChanged s.release.position t.release.position).settleZero :=
  exec_switchDebounceExpiry_of_changed (line := .full) runs changed.symm taken

end

/-- Settles O53. -/
theorem switchLevelsAreDebounced : Obligations.SwitchLevelsAreDebounced := by
  unfold Obligations.SwitchLevelsAreDebounced
  intro s t closed pressed press
  have pressed_eq (u : State) (sameStandby : u.standby = s.standby) : pressed u = u.pressHalf := by
    rw [press, ← sameStandby]
    exact u.pressHalf_eq.symm
  refine ⟨exec_switchLineChange (line := .half), exec_switchLineChange (line := .full),
    fun runs isClosed taken => ?half, fun runs isClosed taken => ?full⟩
  case half =>
    subst isClosed
    refine ⟨exec_halfExpiry_of_same runs taken, fun changed => ?_⟩
    rw [exec_halfExpiry_of_changed runs taken changed]
    refine ⟨fun full => ?fullHeld, fun full press => ?pressed, fun full letGo => ?letGo⟩
    case fullHeld =>
      rw [Release.position_of_full full, taken, Release.position_of_full (by exact full)]
      rfl
    case pressed =>
      have half : s.release.halfTaken = false := by simpa [press] using changed
      rw [pressed_eq t (by rw [taken]), Release.position_of_none full half, taken,
        Release.position_of_half (by exact full) (by exact press)]
      rfl
    case letGo =>
      have half : s.release.halfTaken = true := by simpa [letGo] using changed
      rw [Release.position_of_half full half, taken, Release.position_of_none (by exact full) (by exact letGo)]
      rfl
  case full =>
    subst isClosed
    refine ⟨exec_fullExpiry_of_same runs taken, fun changed => ?_⟩
    rw [exec_fullExpiry_of_changed runs taken changed]
    refine ⟨fun press half => ?fromHalf, fun press half => ?fromNone, fun letGo half => ?toHalf, fun letGo half => ?toNone⟩
    case fromHalf =>
      have full : s.release.fullTaken = false := by simpa [press] using changed
      rw [Release.position_of_half full half, taken, Release.position_of_full (by exact press)]
      rfl
    case fromNone =>
      have full : s.release.fullTaken = false := by simpa [press] using changed
      rw [pressed_eq t (by rw [taken]), Release.position_of_none full half, taken,
        Release.position_of_full (by exact press)]
      rfl
    case toHalf =>
      have full : s.release.fullTaken = true := by simpa [letGo] using changed
      rw [Release.position_of_full full, taken, Release.position_of_half (by exact letGo) (by exact half)]
      rfl
    case toNone =>
      have full : s.release.fullTaken = true := by simpa [letGo] using changed
      rw [Release.position_of_full full, taken, Release.position_of_none (by exact letGo) (by exact half)]
      rfl

end Sys2Proof.Machine
end

