-- ==== Sys2Proof/Proofs/Presses.lean ====
section
/-! Half-press, full press, and their letting go (R127, R153 to R155, R168, R169). -/

namespace Sys2Proof.Machine

variable {s : State}

/-! ### The half-press (R127, R153) -/

/-- The lock waits for a pass where a half-press starts metering, or where no scene stands to be locked (R127). -/
theorem State.halfPressLock_of_pending
    (waits : s.meter.setup.trigger = .half ∧ s.meter.enabled = true ∨ s.exposure.scene.figures = none) :
    s.halfPressLock = { s with
      exposure := { s.exposure with lock := .pending }
      release := { s.release with lockAwaited := true } } := by
  unfold State.halfPressLock
  have pending : (if s.meter.setup.trigger = .half ∧ s.meter.enabled = true then AeLock.pending else s.exposure.scene.toLock) =
      .pending := by
    split
    · rfl
    next notTriggered => simp only [Scene.toLock, waits.resolve_left notTriggered]
  dsimp only
  rw [pending]
  rfl

/-- A scene is there to be locked at once (R127). -/
theorem State.halfPressLock_of_scene {f : Brightness}
    (noTrigger : ¬ (s.meter.setup.trigger = .half ∧ s.meter.enabled = true)) (scene : s.exposure.scene.figures = some f) :
    s.halfPressLock = { s with
      exposure := { s.exposure with lock := .held f.ev s.exposure.scene.uncorrected } } := by
  unfold State.halfPressLock
  simp only [if_neg noTrigger, Scene.toLock, scene, reduceCtorEq, if_false]
  rfl

theorem State.halfPressLock_setup (s : State) : s.halfPressLock.release.setup = s.release.setup := by
  unfold State.halfPressLock
  dsimp only
  repeat' split
  all_goals rfl

/-- The last step of a half-press: FINISHING stays, and every other state gives way to what is awaited (R153). -/
theorem State.halfPress_eq {base locked swept : State}
    (isBase : base = { s with
      meter := s.meter.trigger .half
      release := { s.release with sweepOwed := false, lockAwaited := false, awaitingFocus := false, sweepOutcome := none } })
    (isLocked : locked = if s.release.setup.aeLockOnHalf then base.halfPressLock else base)
    (isSwept : swept = if s.release.setup.afOnHalf then locked.halfPressSweep else locked) :
    s.halfPress = { swept with release := { swept.release with
      state := if swept.release.state = .finishing then .finishing else swept.release.prepared } } := by
  have sameSetup : locked.release.setup = s.release.setup := by
    rw [isLocked]
    split
    · rw [State.halfPressLock_setup, isBase]
    · rw [isBase]
  have ends : s.halfPress = if swept.release.state = .finishing then swept
      else swept.setRelease { swept.release with state := swept.release.prepared } := by
    rw [isSwept, ← sameSetup, isLocked, isBase]
    rfl
  rw [ends]
  split
  next finishing => rw [← finishing]
  · rfl

/-! ### The half-press sweep (R91, R153) -/

theorem State.halfPressSweep_of_refused {code : Result} (refused : s.takeHandoffs.sweepRefusal = some code) :
    s.halfPressSweep = { s with release := { s.release with sweepOutcome := some .afSkipped } } := by
  simp only [State.halfPressSweep, refused]
  rfl

theorem State.halfPressSweep_of_running {begun : State} (passed : s.takeHandoffs.sweepRefusal = none)
    (runs : s.takeHandoffs.beginSweep .half s.takeHandoffs.sweep.preset = (begun, none)) :
    s.halfPressSweep = { begun with release := { begun.release with sweepOutcome := some .running, sweepOwed := true } } := by
  simp only [State.halfPressSweep, passed, runs]
  rfl

theorem State.halfPressSweep_of_ended {begun : State} {o : SweepOutcome} (passed : s.takeHandoffs.sweepRefusal = none)
    (ended : s.takeHandoffs.beginSweep .half s.takeHandoffs.sweep.preset = (begun, some o)) :
    s.halfPressSweep = { begun with release := { begun.release with sweepOutcome := some (.ended o) } } := by
  simp only [State.halfPressSweep, passed, ended]
  rfl

/-! ### The full press (R155) -/

theorem Release.prepared_of_notOwed {r : Release} (notOwed : r.sweepOwed = false) :
    r.prepared = if r.lockAwaited then .preparing else .ready := by
  rw [Release.prepared, notOwed, Bool.false_or]

section
variable (ready : s.release.state ∈ [.preparing, .ready])
include ready

theorem State.fullPress_of_ready : s.fullPress =
    if !s.release.setup.focusPriority then (s.setRelease s.release.beginBurst).armBurst
    else if s.release.sweepOwed then s.setRelease { s.release.beginBurst with awaitingFocus := true }
    else if s.release.sweepOutcome = some (.ended .hit) then (s.setRelease s.release.beginBurst).armBurst
    else s.setRelease (s.release.beginBurst.refuseArm .notFocused) := by
  simp only [List.mem_cons, List.not_mem_nil, or_false] at ready
  unfold State.fullPress
  obtain h | h := ready <;> (dsimp only; rw [h]; rfl)

theorem State.fullPress_of_noPriority (noPriority : s.release.setup.focusPriority = false) :
    s.fullPress = (s.setRelease s.release.beginBurst).armBurst :=
  (State.fullPress_of_ready ready).trans (if_pos (by rw [noPriority]; rfl))

variable (priority : s.release.setup.focusPriority = true)
include priority

theorem State.fullPress_of_sweepOwed (owed : s.release.sweepOwed = true) :
    s.fullPress = s.setRelease { s.release.beginBurst with awaitingFocus := true } := by
  rw [State.fullPress_of_ready ready, if_neg (by simp [priority]), if_pos owed]

theorem State.fullPress_of_hit (notOwed : s.release.sweepOwed = false) (hit : s.release.sweepOutcome = some (.ended .hit)) :
    s.fullPress = (s.setRelease s.release.beginBurst).armBurst := by
  rw [State.fullPress_of_ready ready, if_neg (by simp [priority]), if_neg (Bool.eq_false_iff.mp notOwed), if_pos hit]

theorem State.fullPress_of_notFocused (notOwed : s.release.sweepOwed = false)
    (noHit : s.release.sweepOutcome ≠ some (.ended .hit)) :
    s.fullPress = s.setRelease (s.release.beginBurst.refuseArm .notFocused) := by
  rw [State.fullPress_of_ready ready, if_neg (by simp [priority]), if_neg (Bool.eq_false_iff.mp notOwed), if_neg noHit]

end

theorem State.fullPress_of_finishing (finishing : s.release.state = .finishing) :
    s.fullPress = s.setRelease { s.release with
      lastRefusal := some .busy, burst := { s.release.burst with notice := true } } := by
  unfold State.fullPress
  dsimp only
  rw [finishing]

/-! ### FULL let go (R168) -/

theorem Release.waitsCleared_of_none {r : Release} (focus : r.awaitingFocus = false) (stall : r.stallTimer = false) :
    ({ r with awaitingFocus := false, stallTimer := false } : Release) = r := by
  obtain ⟨⟩ := r
  cases focus
  cases stall
  rfl

theorem Release.endBurst_of_firing {r : Release} (firing : r.state = .firing) (reason : EndReason) :
    r.endBurst reason = { r with
      state := r.prepared
      burst := { r.burst with
        running := false, current := none, shotDue := false, endReason := some reason, notice := true } } := by
  unfold Release.endBurst
  rw [if_pos firing]

theorem State.fullLetGo_of_notFiring (notFiring : s.release.state ≠ .firing) : s.fullLetGo = s := if_neg notFiring

section
variable {r : Release} (isRelease : r = s.release) (firing : r.state = .firing)
include isRelease firing

/-- Nothing has been armed that FINISHING could wait on: the burst waits for focus, stalls, or is between its shots. -/
theorem State.fullLetGo_of_noShot (noShot : (r.awaitingFocus = true ∧ r.stallTimer = false) ∨
      (r.awaitingFocus = false ∧ r.stallTimer = true) ∨
      (r.awaitingFocus = false ∧ r.stallTimer = false ∧ r.burst.current = none)) :
    s.fullLetGo = s.setRelease (({ r with awaitingFocus := false, stallTimer := false } : Release).endBurst .released) := by
  subst isRelease
  unfold State.fullLetGo
  dsimp only
  rw [if_pos firing]
  obtain ⟨focus, stall⟩ | ⟨focus, stall⟩ | ⟨focus, stall, current⟩ := noShot
  · rw [if_pos focus, ← stall]
  · rw [if_neg (Bool.eq_false_iff.mp focus), if_pos stall, ← focus]
  · rw [if_neg (Bool.eq_false_iff.mp focus), if_neg (Bool.eq_false_iff.mp stall)]
    simp only [current]
    rw [Release.waitsCleared_of_none focus stall]

variable {i : Fin 12} (focus : r.awaitingFocus = false) (stall : r.stallTimer = false) (current : r.burst.current = some i)
include focus stall current

theorem State.fullLetGo_of_shot : s.fullLetGo =
    if (r.slots[i]).state = .armed ∧ ((r.slots[i]).shot.map fun x => x.burstIndex).getD 0 ≠ 0 then s.cancelArm i none .released
    else s.setRelease { r.endBurst .released with state := .finishing, finishingOn := some i } := by
  subst isRelease
  unfold State.fullLetGo
  simp only [if_pos firing, focus, stall, current, Bool.false_eq_true, if_false]

/-- A first shot, or one whose exposure runs, is finished (R168). -/
theorem State.fullLetGo_of_finishing (finishes : (r.slots[i]).state = .exposing ∨
      ((r.slots[i]).state = .armed ∧ ∃ x, (r.slots[i]).shot = some x ∧ x.burstIndex = 0)) :
    s.fullLetGo = s.setRelease { r.endBurst .released with state := .finishing, finishingOn := some i } := by
  rw [State.fullLetGo_of_shot isRelease firing focus stall current]
  obtain exposing | ⟨-, x, shot, first⟩ := finishes
  · exact if_neg (by rw [exposing]; exact fun h => nomatch h.1)
  · exact if_neg (by rw [shot]; exact fun h => h.2 first)

/-- A later shot that is still armed is cancelled (R168). -/
theorem State.fullLetGo_of_cancelled {x : Shot} (armed : (r.slots[i]).state = .armed) (shot : (r.slots[i]).shot = some x)
    (later : 0 < x.burstIndex) : s.fullLetGo = s.cancelArm i none .released := by
  rw [State.fullLetGo_of_shot isRelease firing focus stall current]
  exact if_pos ⟨armed, by rw [shot]; exact Nat.ne_of_gt later⟩

end

/-! ### HALF let go (R169) -/

theorem State.releaseSweep_eq (s : State) : s.releaseSweep = { s with
    sweep := { s.sweep with record := { s.sweep.record with
      releasePending := s.sweep.record.releasePending || (s.sweep.record.state.runs &&
        decide (s.sweep.record.origin = .half)) } } } := by
  unfold State.releaseSweep
  split
  next runs => simp [runs, State.setSweepRecord, State.setSweep]
  next notRuns =>
    have unmarked : (s.sweep.record.state.runs && decide (s.sweep.record.origin = .half)) = false := by simpa using notRuns
    rw [unmarked, Bool.or_false]

theorem State.halfLetGo_eq (s : State) : s.halfLetGo = { s with
    exposure := { s.exposure with lock := .none }
    sweep := { s.sweep with record := { s.sweep.record with
      releasePending := s.sweep.record.releasePending || (s.release.sweepOwed && s.sweep.record.state.runs &&
        decide (s.sweep.record.origin = .half)) } }
    release := { s.release with
      lockAwaited := false
      state := if s.release.state ∈ [.preparing, .ready] then .opened else s.release.state } } := by
  have state : (match s.release.state with
      | .preparing | .ready => ReleaseState.opened
      | .opened | .firing | .finishing => s.release.state) =
      if s.release.state ∈ [.preparing, .ready] then .opened else s.release.state := by
    cases s.release.state <;> rfl
  have marked : (if (s.setExposure { s.exposure with lock := .none }).release.sweepOwed
      then (s.setExposure { s.exposure with lock := .none }).releaseSweep
      else s.setExposure { s.exposure with lock := .none }) = { s with
        exposure := { s.exposure with lock := .none }
        sweep := { s.sweep with record := { s.sweep.record with
          releasePending := s.sweep.record.releasePending || (s.release.sweepOwed && s.sweep.record.state.runs &&
            decide (s.sweep.record.origin = .half)) } } } := by
    split
    next owed =>
      have owed : s.release.sweepOwed = true := owed
      rw [State.releaseSweep_eq, owed, Bool.true_and]
      rfl
    next notOwed =>
      have notOwed : s.release.sweepOwed = false := Bool.eq_false_iff.mpr notOwed
      rw [notOwed, Bool.false_and, Bool.false_and, Bool.or_false]
      rfl
  unfold State.halfLetGo
  dsimp only
  rw [marked]
  exact congrArg (fun x => State.setRelease _ { s.release with lockAwaited := false, state := x }) state

/-- Settles O54. -/
theorem pressesPrepareFireAndLetGo : Obligations.PressesPrepareFireAndLetGo := by
  unfold Obligations.PressesPrepareFireAndLetGo
  intro s r isRelease
  refine ⟨fun base locked swept isBase isLocked isSwept => ?half, ?lock, fun u taken => ?sweep,
    fun begun ready isBegun => ?press, fun finishing => ?finishing, fun notFiring => ?notFiring,
    fun ended firing isEnded => ?letGo, ?halfLetGo⟩
  all_goals subst isRelease
  case half => exact State.halfPress_eq isBase isLocked isSwept
  case lock =>
    split
    next waits => exact State.halfPressLock_of_pending waits
    next noWait =>
      obtain ⟨noTrigger, scene⟩ := not_or.mp noWait
      obtain ⟨f, scene⟩ := Option.ne_none_iff_exists'.mp scene
      rw [State.halfPressLock_of_scene noTrigger scene, scene]
  case sweep =>
    subst taken
    exact ⟨State.takeHandoffs_id, fun code => State.halfPressSweep_of_refused, fun begun => State.halfPressSweep_of_running,
      fun begun o => State.halfPressSweep_of_ended⟩
  case press =>
    subst isBegun
    refine ⟨State.fullPress_of_noPriority ready, State.fullPress_of_sweepOwed ready, State.fullPress_of_hit ready,
      fun priority notOwed noHit => ?_⟩
    rw [State.fullPress_of_notFocused ready priority notOwed noHit, Release.refuseArm,
      Release.endBurst_of_firing (by rfl), Release.prepared_of_notOwed (by exact notOwed)]
    rfl
  case finishing => exact State.fullPress_of_finishing finishing
  case notFiring => exact State.fullLetGo_of_notFiring notFiring
  case letGo =>
    subst isEnded
    refine ⟨fun noShot => ?_, fun i focus stall current => ⟨fun finishes => ?_, fun x armed shot later =>
      State.fullLetGo_of_cancelled rfl firing focus stall current armed shot later⟩⟩
    · rw [State.fullLetGo_of_noShot rfl firing noShot, Release.endBurst_of_firing (by exact firing)]
      rfl
    · rw [State.fullLetGo_of_finishing rfl firing focus stall current finishes, ← Release.waitsCleared_of_none focus stall,
        Release.endBurst_of_firing (by exact firing)]
      rfl
  case halfLetGo => exact s.halfLetGo_eq

end Sys2Proof.Machine
end

