-- ==== Sys2Proof/Proofs/Arming.lean ====
section
/-! Arming (R156 to R159): the checks in their order, the pin, and the slot taken; SHOOT, and the shots of a burst. -/

namespace Sys2Proof.Machine

variable {s t : State}

/-! ### What the reports in flight leave alone -/

theorem State.takeReports_stab (s : State) : s.takeReports.stab = s.stab :=
  State.stab_of_others s.takeReports_others

theorem State.takeReports_exposure (s : State) : s.takeReports.exposure = s.exposure :=
  State.exposure_of_others s.takeReports_others

/-- The state that an arm is checked on: the record as the reports in flight leave it, unless they unresolve it (R157). -/
def State.armBase (s : State) : State := if s.takeReports.resolver.record.resolved then s.takeReports else s

theorem State.armBase_cases (s : State) : s.armBase = s.takeReports ∨ s.armBase = s := ite_eq_or_eq ..

theorem State.armBase_meter (s : State) : s.armBase.meter = s.meter := by
  obtain h | h := s.armBase_cases <;> rw [h]
  exact State.meter_of_apart s.takeReports_apart

theorem State.armBase_exposure (s : State) : s.armBase.exposure = s.exposure := by
  obtain h | h := s.armBase_cases <;> rw [h]
  exact s.takeReports_exposure

theorem State.armBase_release (s : State) : s.armBase.release = s.release := by
  obtain h | h := s.armBase_cases <;> rw [h]
  exact s.takeReports_release

/-! ### The checks in their order (R157) -/

theorem AxisState.homed_iff {x : AxisState} :
    x.homed = true ↔ x ∈ [AxisState.idle, .waking, .moving, .waitMap, .settling] := by
  cases x <;> simp [AxisState.homed]

theorem Release.anyActive_iff_mem {r : Release} :
    r.anyActive = true ↔ ∃ i : Fin 12, (r.slots[i]).state ∈ [SlotState.armed, .exposing] := by
  simp only [Release.anyActive_iff, SlotState.active_iff]

/-- The reservation is the row of the size table that the gain falls into. -/
theorem Release.reservationFor_eq {r : Release} {gain reservation : Nat}
    (row : ∀ row : Fin 4, row.val * 24 ≤ gain → (gain < row.val * 24 + 24 ∨ row = 3) → reservation = r.sizeTable[row]) :
    r.reservationFor gain = reservation := by
  refine (row (gainRow gain) ?_ ?_).symm
  · simp only [gainRow]
    omega
  · obtain small | large := Nat.lt_or_ge (gain / 24) 4
    · left
      simp only [gainRow]
      omega
    · right
      exact Fin.ext (by simp only [gainRow]; omega)

section
variable {u : State} {x : Solution}

theorem State.armChecks_of_reference (reference : u.meter.reference = true) :
    u.armChecks = (u.exposure, .error .wrongState) := if_pos reference

variable (image : u.meter.reference = false)
include image

theorem State.armChecks_of_unresolved (unresolved : u.resolver.record.resolved = false) :
    u.armChecks = (u.exposure, .error .noLens) := by
  rw [State.armChecks, if_neg (Bool.eq_false_iff.mp image), if_pos (by rw [unresolved]; rfl)]

variable (resolved : u.resolver.record.resolved = true)
include resolved

theorem State.armChecks_of_travelling (travels : u.zoom.state.inTravel = true) :
    u.armChecks = (u.exposure, .error .busy) := by
  rw [State.armChecks, if_neg (Bool.eq_false_iff.mp image), if_neg (by simp [resolved]), if_pos travels]

variable (rests : ¬ u.zoom.state.inTravel = true)
include rests

theorem State.armChecks_of_notHomed (notHomed : u.iris.state.homed = false) :
    u.armChecks = (u.exposure, .error .notHomed) := by
  rw [State.armChecks, if_neg (Bool.eq_false_iff.mp image), if_neg (by simp [resolved]), if_neg rests,
    if_pos (by rw [notHomed]; rfl)]

variable (homed : u.iris.state.homed = true)
include homed

theorem State.armChecks_of_noExposure (noExposure : u.exposure.solve u.resolver.record.facts.widestIris = none) :
    u.armChecks = (u.exposure, .error .noExposure) := by
  rw [State.armChecks, if_neg (Bool.eq_false_iff.mp image), if_neg (by simp [resolved]), if_neg rests,
    if_neg (by simp [homed]), noExposure]

variable (solved : u.exposure.solve u.resolver.record.facts.widestIris = some x)
include solved

/-- The checks after the solve, which has written the last solution (R133). -/
theorem State.armChecks_of_solved : u.armChecks = ({ u.exposure with solution := some x },
    if u.release.anyActive then .error .busy
    else
      match u.release.firstFree with
      | none => .error .noSlot
      | some i =>
        if u.release.heldSum + u.release.reservationFor x.solved.gain ≤ u.release.storeFree then .ok (x, i)
        else .error .noCapacity) := by
  rw [State.armChecks, if_neg (Bool.eq_false_iff.mp image), if_neg (by simp [resolved]), if_neg rests,
    if_neg (by simp [homed]), solved] <;> rfl

theorem State.armChecks_of_active (active : u.release.anyActive = true) :
    u.armChecks = ({ u.exposure with solution := some x }, .error .busy) := by
  rw [State.armChecks_of_solved image resolved rests homed solved, if_pos active]

variable (inactive : ¬ u.release.anyActive = true)
include inactive

theorem State.armChecks_of_noSlot (noSlot : u.release.firstFree = none) :
    u.armChecks = ({ u.exposure with solution := some x }, .error .noSlot) := by
  rw [State.armChecks_of_solved image resolved rests homed solved, if_neg inactive, noSlot]

variable {i : Fin 12} (free : u.release.firstFree = some i)
include free

theorem State.armChecks_of_noCapacity
    (full : ¬ u.release.heldSum + u.release.reservationFor x.solved.gain ≤ u.release.storeFree) :
    u.armChecks = ({ u.exposure with solution := some x }, .error .noCapacity) := by
  rw [State.armChecks_of_solved image resolved rests homed solved, if_neg inactive, free]
  exact congrArg (Prod.mk _) (if_neg full)

theorem State.armChecks_of_passed
    (fits : u.release.heldSum + u.release.reservationFor x.solved.gain ≤ u.release.storeFree) :
    u.armChecks = ({ u.exposure with solution := some x }, .ok (x, i)) := by
  rw [State.armChecks_of_solved image resolved rests homed solved, if_neg inactive, free]
  exact congrArg (Prod.mk _) (if_pos fits)

end

/-! ### The arm (R157, R158) -/

section
variable {origin : ShotOrigin} {index : Nat} {e : ExposureUnit}

theorem State.arm_of_refused {code : Result} (checked : s.armBase.armChecks = (e, .error code)) :
    s.arm origin index = (s.setExposure e, .refused code) := by
  rw [State.armBase] at checked
  rw [State.arm, checked] <;> rfl

/-- A refusal before the solve leaves everything as it was. -/
theorem State.arm_of_refusedEarly {code : Result} (checked : s.armBase.armChecks = (s.armBase.exposure, .error code)) :
    s.arm origin index = (s, .refused code) := by
  rw [s.armBase_exposure] at checked
  exact State.arm_of_refused checked

variable {x : Solution} {i : Fin 12} (checked : s.armBase.armChecks = (e, .ok (x, i)))
include checked

/-- The reports in flight have unresolved the record: the pin is refused (R158, step 1). -/
theorem State.arm_of_unresolved (unresolved : s.takeReports.resolver.record.resolved = false) :
    s.arm origin index = (s.takeReports.setExposure e, .refused .noLens) := by
  rw [State.armBase] at checked
  have refused : (s.takeReports.setExposure e).askPin .slot = none := if_neg (Bool.eq_false_iff.mp unresolved)
  rw [State.arm, checked]
  dsimp only
  rw [refused]

/-- The pin is granted, and the slot is taken (R158). -/
theorem State.arm_of_resolved (resolved : s.takeReports.resolver.record.resolved = true) :
    s.arm origin index =
      (((s.takeReports.setExposure e).setResolver { s.takeReports.resolver with slotPin := true }).armSlot origin index x i,
        .armed i (nextShotNumber s.release.shotCounter)) := by
  rw [State.armBase] at checked
  have granted : (s.takeReports.setExposure e).askPin .slot =
      some ((s.takeReports.setExposure e).setResolver { s.takeReports.resolver with slotPin := true }) := if_pos resolved
  rw [State.arm, checked]
  dsimp only
  rw [granted, ← s.takeReports_release]
  rfl

end

theorem State.steadyAtArm_eq (s : State) : s.steadyAtArm =
    if s.release.setup.steadyWait = false ∨ s.stab.enabled = false ∨ s.stab.state = .active then .met else .waiting := by
  unfold State.steadyAtArm
  refine if_congr ?_ rfl rfl
  simp [or_assoc]

/-- The slot taken, written out: the picture is of the record's pair and of the position that ZOOM has (R158). -/
theorem State.armSlot_eq {origin : ShotOrigin} {index zoom : Nat} {x : Solution} {i : Fin 12} {pair : Pair}
    (isPair : s.resolver.record.pair = some pair) (at' : s.zoom.position = some zoom) :
    s.armSlot origin index x i = ({ s with
      iris := { s.iris with ownership := .exposure }
      release := { s.release with
        slots := s.release.slots.set i ⟨.armed, some ⟨origin, nextShotNumber s.release.shotCounter, index, x.solved, x.ev,
          x.deficit, pair.context, pair.band, zoom⟩, none, none, some (s.release.reservationFor x.solved.gain), none, false⟩
        shotCounter := nextShotNumber s.release.shotCounter, control := ⟨some i, false, s.steadyAtArm⟩
        steadyTimer := decide (s.steadyAtArm = .waiting) } } : State).internalMove .iris x.solved.iris .exposure := by
  have shot : s.shotFor origin index x = ⟨origin, nextShotNumber s.release.shotCounter, index, x.solved, x.ev,
      x.deficit, pair.context, pair.band, zoom⟩ := by
    rw [State.shotFor, isPair, at'] <;> rfl
  unfold State.armSlot
  rw [shot] <;> rfl

/-- The state that an arm takes its slot in: the reports taken, the last solution written, and the pin held (R158). -/
def State.pinnedForArm (s : State) (e : ExposureUnit) : State :=
  (s.takeReports.setExposure e).setResolver { s.takeReports.resolver with slotPin := true }

theorem State.pinnedForArm_release (s : State) (e : ExposureUnit) : (s.pinnedForArm e).release = s.release :=
  s.takeReports_release

theorem State.pinnedForArm_steadyAtArm (s : State) (e : ExposureUnit) : (s.pinnedForArm e).steadyAtArm = s.steadyAtArm := by
  have sameStab : (s.pinnedForArm e).stab = s.stab := s.takeReports_stab
  rw [State.steadyAtArm, sameStab, s.pinnedForArm_release, State.steadyAtArm]

/-! ### SHOOT, and the shots of a burst (R155, R156) -/

theorem exec_shoot (ready : s.ready) :
    exec (.shoot []) s = .next ((shootOwner () s).1.answer (shootOwner () s).2) :=
  request_withParams_some (owner := shootOwner) ready rfl

section
variable {u : State} {i : Fin 12} {number : Nat} {code : Result}

theorem exec_shoot_of_refused (refused : s.arm .shoot 0 = (u, .refused code)) (ready : s.ready) :
    exec (.shoot []) s = .next (u.settleZero.answer ⟨code, []⟩) := by
  rw [exec_shoot ready, shootOwner, refused] <;> rfl

theorem exec_shoot_of_armed (armed : s.arm .shoot 0 = (u, .armed i number)) (ready : s.ready) :
    exec (.shoot []) s = .next (u.settleZero.answer ⟨.done, BitVec.ofNat 8 i.val :: u32 number⟩) := by
  rw [exec_shoot ready, shootOwner, armed] <;> rfl

theorem State.armBurst_of_armed (armed : s.arm .switch s.release.burst.shotsArmed = (u, .armed i number)) :
    s.armBurst = { u with release := { u.release with
      burst := { u.release.burst with shotsArmed := u.release.burst.shotsArmed + 1, current := some i } } } := by
  rw [State.armBurst, armed] <;> rfl

theorem State.armBurst_of_refused (refused : s.arm .switch s.release.burst.shotsArmed = (u, .refused code)) :
    s.armBurst = u.setRelease (u.release.refuseArm code) := by
  rw [State.armBurst, refused] <;> rfl

end

/-- Settles O55. -/
theorem armIsCheckedAndMade : Obligations.ArmIsCheckedAndMade := by
  unfold Obligations.ArmIsCheckedAndMade
  refine ⟨fun s t base origin index isTaken isBase => ⟨fun none => ?nothing, fun reference => ?reference, fun image =>
    ⟨fun unresolved => ?unresolved, fun resolved => ⟨fun travels => ?travels, fun rests => ⟨fun notHomed => ?notHomed,
      fun homed => ⟨fun noExposure => ?noExposure, fun x e reservation solved isUnit row => ?solved⟩⟩⟩⟩⟩,
    fun s u => ⟨fun code => exec_shoot_of_refused, fun i number => exec_shoot_of_armed,
      fun i number => State.armBurst_of_armed, fun code refused firing => ?burst⟩⟩
  case burst =>
    rw [State.armBurst_of_refused refused, Release.refuseArm, Release.endBurst_of_firing (by exact firing)]
    cases code <;> rfl
  all_goals
    subst isTaken
    replace isBase : base = s.armBase := isBase
    subst isBase
  case nothing => exact State.takeReports_id none
  case reference => exact State.arm_of_refusedEarly (State.armChecks_of_reference (by rw [s.armBase_meter]; exact reference))
  all_goals rw [← s.armBase_meter] at image
  case unresolved => exact State.arm_of_refusedEarly (State.armChecks_of_unresolved image unresolved)
  case travels =>
    exact State.arm_of_refusedEarly (State.armChecks_of_travelling image resolved (AxisState.inTravel_iff.mpr travels))
  all_goals rw [← AxisState.inTravel_iff] at rests
  case notHomed =>
    exact State.arm_of_refusedEarly
      (State.armChecks_of_notHomed image resolved rests (AxisState.homed_eq_false.mpr notHomed))
  all_goals rw [← AxisState.homed_iff] at homed
  case noExposure =>
    rw [← s.armBase_exposure] at noExposure
    exact State.arm_of_refusedEarly (State.armChecks_of_noExposure image resolved rests homed noExposure)
  case solved =>
    rw [← s.armBase_exposure] at solved isUnit
    rw [← s.armBase_release] at row
    replace row := Release.reservationFor_eq row
    subst isUnit row
    refine ⟨fun active => ?active, fun inactive => ⟨fun noSlot => ?taken, fun i free first => ⟨fun full => ?full, fun fits =>
      ⟨fun lost => ?lost, fun pair zoom number steady kept isPair isPosition isNumber isSteady => ?armed⟩⟩⟩⟩
    case active =>
      rw [← s.armBase_release] at active
      exact State.arm_of_refused (State.armChecks_of_active image resolved rests homed solved
        (Release.anyActive_iff_mem.mpr active))
    all_goals
      replace inactive : ¬ s.armBase.release.anyActive = true := fun active =>
        (Release.anyActive_iff_mem.mp active).elim (by rw [s.armBase_release]; exact inactive)
    case taken =>
      rw [← s.armBase_release] at noSlot
      exact State.arm_of_refused (State.armChecks_of_noSlot image resolved rests homed solved inactive
        (Release.firstFree_eq_none noSlot))
    all_goals
      rw [← s.armBase_release] at free first
      replace free := Release.firstFree_eq_some free first
    case full =>
      rw [← s.armBase_release] at full
      exact State.arm_of_refused (State.armChecks_of_noCapacity image resolved rests homed solved inactive free
        (Nat.not_le_of_lt full))
    all_goals
      rw [← s.armBase_release] at fits
      have passed := State.armChecks_of_passed image resolved rests homed solved inactive free (by simpa using fits)
    case lost => exact State.arm_of_unresolved passed lost
    case armed =>
      subst isNumber isSteady
      have made := State.armSlot_eq (s := s.pinnedForArm { s.armBase.exposure with solution := some x }) (origin := origin)
        (index := index) (x := x) (i := i) isPair isPosition
      rw [State.pinnedForArm_steadyAtArm, State.steadyAtArm_eq, State.pinnedForArm_release] at made
      rw [s.armBase_release]
      exact (State.arm_of_resolved passed kept).trans (congrArg (·, _) made)

end Sys2Proof.Machine
end

