-- ==== Sys2Proof/Proofs/Exposing.lean ====
section
/-! The exposure of an armed slot: its start, when the iris has settled and the steady wait is over, and its end (R145, R159 to
R161). -/

namespace Sys2Proof.Machine

variable {s : State} {i : Fin 12} {slot : Slot} {x : Shot}

/-! ### The start (R145, R160) -/

/-- The Stabilizer's marks at the start: an image is marked at once where it is not being steadied (R145). -/
theorem Stabilizer.exposureStart_eq (t : Stabilizer) : t.exposureStart = { t with
    limitMark := false, exposureOpen := true, leftActive := decide (t.state ∈ [.centering, .panning, .held, .fault]) } := by
  have marked : (match t.state with
      | .centering | .panning | .held | .fault => true
      | .off | .active => false) = decide (t.state ∈ [.centering, .panning, .held, .fault]) := by
    cases t.state <;> rfl
  exact congrArg (fun b => ({ t with limitMark := false, exposureOpen := true, leftActive := b } : Stabilizer)) marked

theorem State.startExposure_eq (shot : slot.shot = some x) : s.startExposure i slot = { s with
    stab := (s.handoffs.stab.foldl Stabilizer.onNotice s.stab).exposureStart
    handoffs := { s.handoffs with stab := [] }
    release := { s.release with
      slots := s.release.slots.set i { slot with state := .exposing, focus := s.focus.position }
      shutter := true, expose := true, exposureTimer := some x.settings.time } } := by
  unfold State.startExposure
  rw [shot] <;> rfl

section
variable (armed : s.release.control.armed = some i) (isSlot : slot = s.release.slots[i])
include armed isSlot

theorem State.tryExposure_of_both (isArmed : slot.state = .armed) (settled : s.release.control.irisSettled = true)
    (steady : s.release.control.steady ≠ .waiting) : s.tryExposure = s.startExposure i slot := by
  subst isSlot
  simp only [State.tryExposure, armed]
  exact if_pos ⟨isArmed, settled, steady⟩

omit isSlot in
theorem State.tryExposure_of_notSettled (unsettled : s.release.control.irisSettled = false) : s.tryExposure = s := by
  simp only [State.tryExposure, armed]
  exact if_neg fun h => Bool.eq_false_iff.mp unsettled h.2.1

omit isSlot in
theorem State.tryExposure_of_waiting (waits : s.release.control.steady = .waiting) : s.tryExposure = s := by
  simp only [State.tryExposure, armed]
  exact if_neg fun h => h.2.2 waits

theorem State.irisSettled_of_there (isArmed : slot.state = .armed) (shot : slot.shot = some x)
    (there : s.iris.position = some x.settings.iris) : s.irisSettled = ({ s with
      release := { s.release with control := { s.release.control with irisSettled := true } } } : State).tryExposure := by
  subst isSlot
  simp only [State.irisSettled, armed]
  exact if_pos ⟨isArmed, by rw [shot]; exact there⟩

theorem State.irisSettled_of_elsewhere (shot : slot.shot = some x) (elsewhere : s.iris.position ≠ some x.settings.iris) :
    s.irisSettled = s := by
  subst isSlot
  simp only [State.irisSettled, armed]
  exact if_neg fun h => elsewhere (by rw [h.2, shot]; rfl)

end

/-! ### The steady wait (R159) -/

theorem exec_steadyWaitExpiry (runs : s.release.steadyTimer = true) : exec .steadyWaitExpiry s =
    .next ({ s with release := { s.release with
      control := { s.release.control with steady := .expired }, steadyTimer := false } } : State).tryExposure :=
  if_pos runs

/-- A notice of the Stabilizer in flight is taken. -/
theorem exec_steadyNotice {n : Nat} (told : s.handoffs.steady = n + 1) : exec .steadyNotice s =
    .next ({ s with handoffs := { s.handoffs with steady := n } } : State).takeSteady := by
  have flight : ¬ s.handoffs.steady = 0 := by omega
  show execSteadyNotice s = _
  rw [execSteadyNotice, if_neg flight, told]
  rfl

theorem State.takeSteady_of_waiting (armed : s.release.control.armed = some i) (waits : s.release.control.steady = .waiting) :
    s.takeSteady = ({ s with release := { s.release with
      control := { s.release.control with steady := .met }, steadyTimer := false } } : State).tryExposure :=
  if_pos ⟨by rw [armed]; rfl, waits⟩

theorem State.takeSteady_of_notWaiting (over' : s.release.control.steady ≠ .waiting) : s.takeSteady = s :=
  if_neg fun h => over' h.2

/-! ### The end (R161) -/

theorem State.endExposure_eq (isSlot : slot = s.release.slots[i]) : s.endExposure i =
    (({ s with
      iris := { s.iris with ownership := .none }, stab := { s.stab with exposureOpen := false } } : State).releasePin
        .slot).setRelease ((({ s.release with
      shutter := false, expose := false, exposureTimer := none, control := ExposureControl.cleared, steadyTimer := false
      slots := s.release.slots.set i { slot with
        state := .exposed, notice := true
        marks := some ⟨s.stab.shake, decide (s.release.control.steady = .expired)⟩ } } : Release).nextShot i).finish i) := by
  subst isSlot
  have letGo : ((s.setRelease s.release.closeShutter).setStab s.stab.exposureEnd).letSlotGo =
      (({ s with
        iris := { s.iris with ownership := .none }, stab := { s.stab with exposureOpen := false } } : State).releasePin
          .slot).setRelease s.release.closeShutter :=
    State.setRelease_releasePin { s with
      iris := { s.iris with ownership := .none }, stab := { s.stab with exposureOpen := false } } s.release.closeShutter .slot
  unfold State.endExposure
  dsimp only
  rw [letGo]
  rfl

theorem exec_exposureTimerExpiry (armed : s.release.control.armed = some i) (runs : s.release.exposureTimer ≠ none) :
    exec .exposureTimerExpiry s = .next (s.endExposure i).settleZero := by
  obtain ⟨time, runs⟩ := Option.ne_none_iff_exists'.mp runs
  show execExposureTimerExpiry s = _
  rw [execExposureTimerExpiry, runs, armed]

/-- Settles O56. -/
theorem exposureStartsAndEnds : Obligations.ExposureStartsAndEnds := by
  unfold Obligations.ExposureStartsAndEnds
  intro s i slot x armed isSlot shot starts told isTold isStarts
  have started (steady : Steady) (settled : Bool) : starts steady settled =
      ({ s with release := { s.release with
        control := { s.release.control with steady := steady, irisSettled := settled }
        steadyTimer := false } } : State).startExposure i slot := by
    rw [isStarts, State.startExposure_eq shot, Stabilizer.exposureStart_eq, ← isTold]
  refine ⟨fun isArmed => ⟨fun there steady noTimer => ?starts, fun there waits => ?marked,
    State.irisSettled_of_elsewhere armed isSlot shot, fun runs settled => ?expiredStarts, fun runs unsettled => ?expired,
    fun n notice => ⟨fun waits settled => ?metStarts, fun waits unsettled => ?met, fun over' => ?late⟩⟩,
    fun runs _ t r isLetGo isEnded => ?ends⟩
  case starts =>
    rw [State.irisSettled_of_there armed isSlot isArmed shot there,
      State.tryExposure_of_both (by exact armed) (by exact isSlot) isArmed (by rfl) (by exact steady), started, ← noTimer]
  case marked =>
    rw [State.irisSettled_of_there armed isSlot isArmed shot there,
      State.tryExposure_of_waiting (by exact armed) (by exact waits)]
  case expiredStarts =>
    rw [exec_steadyWaitExpiry runs, State.tryExposure_of_both (by exact armed) (by exact isSlot) isArmed (by exact settled)
      (by exact nofun), started, ← settled]
  case expired =>
    rw [exec_steadyWaitExpiry runs, State.tryExposure_of_notSettled (by exact armed) (by exact unsettled)]
  case metStarts =>
    rw [exec_steadyNotice notice, State.takeSteady_of_waiting (by exact armed) (by exact waits),
      State.tryExposure_of_both (by exact armed) (by exact isSlot) isArmed (by exact settled) (by exact nofun), started,
      State.startExposure_eq shot, State.startExposure_eq shot, ← settled]
  case met =>
    rw [exec_steadyNotice notice, State.takeSteady_of_waiting (by exact armed) (by exact waits),
      State.tryExposure_of_notSettled (by exact armed) (by exact unsettled)]
  case late => rw [exec_steadyNotice notice, State.takeSteady_of_notWaiting (by exact over')]
  case ends =>
    rw [exec_exposureTimerExpiry armed runs, State.endExposure_eq isSlot, isLetGo, isEnded]
    rfl

end Sys2Proof.Machine
end

