-- ==== Sys2Proof/Proofs/PictureSlots.lean ====
section
/-! The picture slots, the store, and the shots of a burst that follow from them (R162 to R168, R170). -/

namespace Sys2Proof.Machine

variable {s : State} {p : Bytes} {i : Fin 12} {t : Slot}

/-! ### DEVELOPED (R165) -/

section
variable {size held : Nat} (read : developedParams p = some (i, size)) (isSlot : t = s.release.slots[i]) (ready : s.ready)
include read isSlot ready

theorem exec_slotDeveloped_of_notExposed (notExposed : t.state ≠ .exposed) :
    exec (.slotDeveloped p) s = .next (s.answer ⟨.wrongState, []⟩) := by
  subst isSlot
  have refused : slotDevelopedOwner (i, size) s = (s, plain .wrongState) := if_pos notExposed
  refine (request_withParams_some (owner := slotDevelopedOwner) ready read).trans ?_
  rw [refused, plain]

variable (exposed : t.state = .exposed) (reserved : t.reservation = some held)
include exposed reserved

theorem exec_slotDeveloped_of_fits (fits : size ≤ held ∨ s.release.heldSum - held + size ≤ s.release.storeFree) :
    exec (.slotDeveloped p) s = .next (({ s with release := { s.release with
      slots := s.release.slots.set i { t with
        state := .developed, reservation := none, size := some size } } } : State).answer ⟨.done, []⟩) := by
  subst isSlot
  have owner : slotDevelopedOwner (i, size) s = (s.setRelease (s.release.setSlot i { s.release.slots[i] with
      state := .developed, reservation := none, size := some size }), done []) := by
    unfold slotDevelopedOwner
    dsimp only
    rw [if_neg (not_not_intro exposed), reserved]
    exact if_pos fits
  refine (request_withParams_some (owner := slotDevelopedOwner) ready read).trans ?_
  rw [owner]
  rfl

theorem exec_slotDeveloped_of_tooLarge (more : held < size)
    (full : s.release.storeFree < s.release.heldSum - held + size) :
    exec (.slotDeveloped p) s = .next (s.answer ⟨.noCapacity, []⟩) := by
  subst isSlot
  have owner : slotDevelopedOwner (i, size) s = (s, plain .noCapacity) := by
    unfold slotDevelopedOwner
    dsimp only
    rw [if_neg (not_not_intro exposed), reserved]
    exact if_neg (not_or_intro (Nat.not_le_of_lt more) (Nat.not_le_of_lt full))
  refine (request_withParams_some (owner := slotDevelopedOwner) ready read).trans ?_
  rw [owner, plain]

end

/-! ### STORED (R165) -/

section
variable {r : Release} (isSlot : t = s.release.slots[i])
  (freed : r = { s.release with slots := s.release.slots.set i Slot.cleared }) (ready : s.ready)
include isSlot ready

theorem exec_slotStored_of_notDeveloped (notDeveloped : t.state ≠ .developed) :
    exec (.slotStored [BitVec.ofNat 8 i.val]) s = .next (s.answer ⟨.wrongState, []⟩) := by
  subst isSlot
  have owner : slotStoredOwner i s = (s, plain .wrongState) := if_pos notDeveloped
  refine (request_withParams_some (owner := slotStoredOwner) ready (finParam_byte i (by decide))).trans ?_
  rw [owner, plain]

include freed in
theorem exec_slotStored_of_developed {size : Nat} (developed : t.state = .developed) (isSize : t.size = some size) :
    exec (.slotStored [BitVec.ofNat 8 i.val]) s = .next ((({ s with
      release := { r with storeFree := s.release.storeFree - size } } : State).slotFreed.settleZero).answer ⟨.done, []⟩) := by
  subst isSlot freed
  have owner : slotStoredOwner i s = ((s.setRelease { s.release.setSlot i Slot.cleared with
      storeFree := s.release.storeFree - size }).slotFreed.settleZero, done []) := by
    unfold slotStoredOwner
    dsimp only
    rw [if_neg (not_not_intro developed), isSize]
    rfl
  refine (request_withParams_some (owner := slotStoredOwner) ready (finParam_byte i (by decide))).trans ?_
  rw [owner]
  rfl

/-! ### DISCARD (R166) -/

theorem exec_slotDiscard_of_free (isFree : t.state = .free) :
    exec (.slotDiscard [BitVec.ofNat 8 i.val]) s = .next (s.answer ⟨.wrongState, []⟩) := by
  subst isSlot
  have owner : slotDiscardOwner i s = (s, plain .wrongState) := if_pos isFree
  refine (request_withParams_some (owner := slotDiscardOwner) ready (finParam_byte i (by decide))).trans ?_
  rw [owner, plain]

theorem exec_slotDiscard_of_notFree (notFree : t.state ≠ .free) :
    exec (.slotDiscard [BitVec.ofNat 8 i.val]) s = .next ((s.discard i).settleZero.answer ⟨.done, []⟩) := by
  subst isSlot
  have owner : slotDiscardOwner i s = ((s.discard i).settleZero, done []) := if_neg notFree
  refine (request_withParams_some (owner := slotDiscardOwner) ready (finParam_byte i (by decide))).trans ?_
  rw [owner, done]

include freed in
omit ready in
theorem State.discard_of_taken (taken : t.state ∈ [.exposed, .developed]) :
    s.discard i = ({ s with release := r } : State).slotFreed := by
  subst isSlot freed
  simp only [List.mem_cons, List.not_mem_nil, or_false] at taken
  unfold State.discard
  obtain h | h := taken <;> (rw [h] <;> rfl)

omit isSlot ready in
theorem State.discardActive_eq (s : State) (i : Fin 12) : s.discardActive i =
    (({ s with iris := { s.iris with ownership := .none } } : State).releasePin .slot).setRelease
      ((((s.release.setSlot i Slot.cleared).clearControl).nextShot i).finish i) := by
  unfold State.discardActive
  dsimp only
  rw [State.letSlotGo_release]
  rfl

include freed in
omit ready in
/-- The picture is still in the making: IRIS and the pin are given back, the shutter is closed, and what follows falls due. -/
theorem State.discard_of_active (active : t.state ∈ [.armed, .exposing]) : s.discard i = (({ s with
      iris := { s.iris with ownership := .none }
      stab := if t.state = .exposing then { s.stab with exposureOpen := false } else s.stab } : State).releasePin
        .slot).setRelease (((if t.state = .exposing then
          { r with
            control := ExposureControl.cleared, steadyTimer := false, shutter := false, expose := false
            exposureTimer := none }
        else { r with control := ExposureControl.cleared, steadyTimer := false } : Release).nextShot i).finish i) := by
  subst isSlot freed
  simp only [List.mem_cons, List.not_mem_nil, or_false] at active
  unfold State.discard
  obtain armed | exposing := active
  case inl =>
    rw [armed]
    exact s.discardActive_eq i
  case inr =>
    rw [exposing]
    dsimp only
    rw [State.discardActive_eq]
    exact (congrArg (State.setRelease · _) (State.setRelease_releasePin { s with
      iris := { s.iris with ownership := .none }, stab := s.stab.exposureEnd } s.release.closeShutter .slot)).trans rfl

end

/-! ### The capacity and the setup (R164, R170) -/

section
variable (ready : s.ready)
include ready

theorem exec_storeCapacity_of_less {blocks : Nat} (read : capacityParam p = some blocks) (less : blocks < s.release.heldSum) :
    exec (.storeCapacity p) s = .next (s.answer ⟨.noCapacity, []⟩) := by
  have owner : storeCapacityOwner blocks s = (s, plain .noCapacity) := if_pos less
  refine (request_withParams_some (owner := storeCapacityOwner) ready read).trans ?_
  rw [owner, plain]

theorem exec_storeCapacity_of_enough {blocks : Nat} (read : capacityParam p = some blocks)
    (enough : s.release.heldSum ≤ blocks) : exec (.storeCapacity p) s =
      .next (({ s with release := { s.release with storeFree := blocks } } : State).answer ⟨.done, []⟩) := by
  have owner : storeCapacityOwner blocks s = (s.setRelease { s.release with storeFree := blocks }, done []) :=
    if_neg (Nat.not_lt_of_le enough)
  refine (request_withParams_some (owner := storeCapacityOwner) ready read).trans ?_
  rw [owner]
  rfl

theorem exec_releaseSetup {u : ReleaseSetup} (read : releaseParams p = some u) : exec (.releaseSetup p) s =
    .next (({ s with release := { s.release with setup := u } } : State).answer ⟨.done, []⟩) :=
  request_withParams_some (owner := releaseSetupOwner) ready read

theorem exec_sizeTableWrite {rows : Vector Nat 4} (read : sizeParams p = some rows) : exec (.sizeTableWrite p) s =
    .next (({ s with release := { s.release with sizeTable := rows } } : State).answer ⟨.done, []⟩) :=
  request_withParams_some (owner := sizeTableWriteOwner) ready read

end

/-! ### A stalled burst (R167) -/

theorem State.slotFreed_of_noStall (noStall : s.release.stallTimer = false) : s.slotFreed = s :=
  if_neg (Bool.eq_false_iff.mp noStall)

theorem State.slotFreed_of_stall (stall : s.release.stallTimer = true) :
    s.slotFreed = ({ s with release := { s.release with stallTimer := false } } : State).armBurst := if_pos stall

theorem exec_stallTimerExpiry (stall : s.release.stallTimer = true) : exec .stallTimerExpiry s =
    .next (s.setRelease (({ s.release with stallTimer := false } : Release).endBurst .stalled)) := if_pos stall

/-! ### The next shot, and the end of FINISHING (R167, R168) -/

section
variable {r : Release}

theorem Release.firstFree_of_exists (free : ∃ j : Fin 12, (r.slots[j]).state = .free) : ∃ j, r.firstFree = some j :=
  have ⟨j, isFree⟩ := free
  Option.isSome_iff_exists.mp (List.find?_isSome.mpr ⟨j, List.mem_finRange j, decide_eq_true isFree⟩)

theorem Release.nextShot_of_other (other : r.burst.running = false ∨ r.burst.current ≠ some i) : r.nextShot i = r :=
  if_neg fun h => other.elim (Bool.eq_false_iff.mp · h.1) (· h.2)

section
variable (running : r.burst.running = true) (current : r.burst.current = some i)
include running current

theorem Release.nextShot_of_limit (limit : r.setup.shotLimit ≤ r.burst.shotsArmed) : r.nextShot i = r.endBurst .limit := by
  rw [Release.nextShot, if_pos ⟨running, current⟩, if_pos limit]

theorem Release.nextShot_of_free (more : r.burst.shotsArmed < r.setup.shotLimit)
    (free : ∃ j : Fin 12, (r.slots[j]).state = .free) :
    r.nextShot i = { r with burst := { r.burst with current := none, shotDue := true } } := by
  obtain ⟨j, found⟩ := Release.firstFree_of_exists free
  rw [Release.nextShot, if_pos ⟨running, current⟩, if_neg (Nat.not_le_of_lt more), found]

theorem Release.nextShot_of_noFree (more : r.burst.shotsArmed < r.setup.shotLimit)
    (noFree : ∀ j : Fin 12, (r.slots[j]).state ≠ .free) :
    r.nextShot i = { r with burst := { r.burst with current := none }, stallTimer := true } := by
  rw [Release.nextShot, if_pos ⟨running, current⟩, if_neg (Nat.not_le_of_lt more), Release.firstFree_eq_none noFree]

end

theorem Release.finish_of_other (other : r.state ≠ .finishing ∨ r.finishingOn ≠ some i) : r.finish i = r :=
  if_neg fun h => other.elim (· h.1) (· h.2)

theorem Release.finish_of_waited (finishing : r.state = .finishing) (waited : r.finishingOn = some i) :
    r.finish i = { r with finishingOn := none, state := if r.position = .none then .opened else r.prepared } :=
  if_pos ⟨finishing, waited⟩

theorem Release.endBurst_eq (r : Release) (reason : EndReason) : r.endBurst reason = { r with
    state := if r.state = .firing then r.prepared else r.state
    burst := { r.burst with
      running := false, current := none, shotDue := false, endReason := some reason, notice := true } } := rfl

end

/-- Settles O57. -/
theorem slotsAreRetiredAndFreed : Obligations.SlotsAreRetiredAndFreed := by
  unfold Obligations.SlotsAreRetiredAndFreed
  refine ⟨fun s ready => ⟨fun p i size t held read isSlot => ?developed, fun i t r isSlot freed => ?slot,
      fun p blocks read => ⟨exec_storeCapacity_of_less ready read, exec_storeCapacity_of_enough ready read⟩,
      fun p u => exec_releaseSetup ready, fun p rows => exec_sizeTableWrite ready⟩,
    fun s => ⟨State.slotFreed_of_noStall, fun stall => ⟨State.slotFreed_of_stall stall, fun firing => ?stalled⟩⟩,
    fun r i limit isLimit => ⟨Release.nextShot_of_other, fun running current => ?next, Release.finish_of_other,
      fun finishing waited => ?finish⟩⟩
  case developed =>
    exact ⟨exec_slotDeveloped_of_notExposed read isSlot ready, fun exposed reserved =>
      ⟨exec_slotDeveloped_of_fits read isSlot ready exposed reserved,
        exec_slotDeveloped_of_tooLarge read isSlot ready exposed reserved⟩⟩
  case slot =>
    refine ⟨exec_slotStored_of_notDeveloped isSlot ready, fun size => exec_slotStored_of_developed isSlot freed ready,
      exec_slotDiscard_of_free isSlot ready, fun taken => ?_, fun active u letGo => ?_⟩
    · rw [exec_slotDiscard_of_notFree isSlot ready (by rintro h; simp [h] at taken),
        State.discard_of_taken isSlot freed taken]
    · rw [exec_slotDiscard_of_notFree isSlot ready (by rintro h; simp [h] at active),
        State.discard_of_active isSlot freed active, letGo]
      rfl
  case stalled =>
    rw [exec_stallTimerExpiry stall, Release.endBurst_of_firing (by exact firing)]
    rfl
  case next =>
    replace isLimit : limit = r.setup.shotLimit := isLimit
    subst isLimit
    exact ⟨fun limit => (Release.nextShot_of_limit running current limit).trans (r.endBurst_eq _),
      Release.nextShot_of_free running current, Release.nextShot_of_noFree running current⟩
  case finish =>
    rw [Release.finish_of_waited finishing waited]
    refine ⟨fun half full => ?_, fun half full => ?_⟩
    · rw [if_pos (Release.position_of_none full half)]
    · rw [Release.position_of_half full half, Release.prepared]
      rfl

end Sys2Proof.Machine
end

