-- ==== Sys2Proof/Proofs/BlocksReset.lean ====
section
/-! Power-on reset at the map, the resolver, the sweep, metering and exposure units, the release and the link (R22, R41, R103,
R120, R135, R172, R176). -/

namespace Sys2Proof.Machine

/-! ### The vectors of the reset records -/

theorem LensMap.reset_entries (i : Fin 32) : LensMap.reset.entries[i] = Entry.zero := by simp [LensMap.reset]

/-- An empty map answers for no pair. -/
theorem LensMap.reset_lookup (q : Pair) : LensMap.reset.lookup q = none := by
  refine LensMap.lookup_eq_none_iff.mpr fun i => ?_
  rw [LensMap.reset_entries]
  exact Bool.false_ne_true

theorem MeterUnit.reset_zones (z : Fin 8) : MeterUnit.reset.zones[z] = ⟨⟨.none, none⟩, false, false⟩ := by
  simp [MeterUnit.reset]

theorem ExposureUnit.reset_weights (z : Fin 8) : ExposureUnit.reset.setup.weights[z] = 1 := by
  simp [ExposureUnit.reset]

theorem Release.reset_slots (i : Fin 12) : Release.reset.slots[i] = Slot.cleared := by simp [Release.reset]

theorem Release.reset_sizeTable (row : Fin 4) : Release.reset.sizeTable[row] = 64 := by simp [Release.reset]

/-! ### The blocks after power-on reset -/

section
variable {h f a1 a0 : Bool} {s t : State} (reset : exec (.powerOnReset h f a1 a0) s = .next t)
include reset

theorem map_of_powerOnReset : t.map = LensMap.reset := by
  cases reset
  rfl

/-- The first sample of the accessory lines is taken without debounce (R41). -/
theorem resolver_of_powerOnReset : t.resolver = { Resolver.reset with
    accessory := senseCode a1 a0, sensed := senseCode a1 a0, lastSample := senseCode a1 a0 } := by
  cases reset
  rfl

theorem sweep_of_powerOnReset : t.sweep = SweepUnit.reset := by
  cases reset
  rfl

theorem meter_of_powerOnReset : t.meter = MeterUnit.reset := by
  cases reset
  rfl

theorem exposure_of_powerOnReset : t.exposure = ExposureUnit.reset := by
  cases reset
  rfl

/-- A contact found closed starts its debounce timer (R172). -/
theorem release_of_powerOnReset : t.release = { Release.reset with halfDebounce := h, fullDebounce := f } := by
  cases reset
  rfl

theorem link_of_powerOnReset : t.link = .free := by
  cases reset
  rfl

theorem standby_of_powerOnReset : t.standby = false := by
  cases reset
  rfl

theorem slots_of_powerOnReset (i : Fin 12) : t.release.slots[i] = Slot.cleared := by
  rw [release_of_powerOnReset reset]
  exact Release.reset_slots i

/-- Nothing asks for attention after power-on reset (R179). -/
theorem attn_of_powerOnReset : attn t = false := by
  refine Bool.eq_false_iff.mpr fun asks => ?_
  rw [attn_iff, map_of_powerOnReset reset, resolver_of_powerOnReset reset, sweep_of_powerOnReset reset,
    meter_of_powerOnReset reset, stab_of_powerOnReset reset] at asks
  obtain ⟨a, asks⟩ | asks | asks | asks | asks | asks | ⟨i, asks⟩ | asks := asks
  · rw [axis_of_powerOnReset reset] at asks
    cases asks
  · cases asks
  · cases asks
  · cases asks
  · cases asks
  · cases asks
  · rw [slots_of_powerOnReset reset] at asks
    cases asks
  · rw [release_of_powerOnReset reset] at asks
    cases asks

end

/-- Settles O5. -/
theorem resetLeavesTheOtherBlocks : Obligations.ResetLeavesTheOtherBlocks := by
  unfold Obligations.ResetLeavesTheOtherBlocks
  intro h f a1 a0 s
  obtain ⟨t, reset⟩ := exec_powerOnReset_next h f a1 a0 s
  have quiet := attn_of_powerOnReset reset
  have idle : rdy t = false := by rw [rdy, link_of_powerOnReset reset]
  refine ⟨t, reset, ?_⟩
  rw [map_of_powerOnReset reset, resolver_of_powerOnReset reset, sweep_of_powerOnReset reset, meter_of_powerOnReset reset,
    exposure_of_powerOnReset reset, release_of_powerOnReset reset, link_of_powerOnReset reset, standby_of_powerOnReset reset]
  refine ⟨LensMap.reset_entries, rfl, rfl, rfl, rfl, rfl, rfl, LensMap.reset_lookup, ?resolver⟩
  refine ⟨rfl, rfl, rfl, Nat.zero_add _, rfl, rfl, rfl, rfl, rfl, rfl, rfl, ?sweep⟩
  refine ⟨rfl, rfl, rfl, rfl, rfl, ?meter⟩
  refine ⟨rfl, rfl, rfl, rfl, rfl, rfl, rfl, rfl, rfl, rfl, rfl, MeterUnit.reset_zones, ?exposure⟩
  refine ⟨ExposureUnit.reset_weights, rfl, rfl, rfl, rfl, rfl, rfl, rfl, rfl, ?release⟩
  refine ⟨rfl, rfl, rfl, rfl, rfl, rfl, rfl, rfl, rfl, rfl, rfl, rfl, rfl, rfl, rfl, rfl, rfl, rfl, Release.reset_slots,
    Release.reset_sizeTable, rfl, rfl, ?link⟩
  exact ⟨rfl, idle, quiet, rfl⟩

end Sys2Proof.Machine
end

