-- ==== Sys2Proof/Proofs/ClearAxis.lean ====
section
/-! CLEAR at one axis (R69, R81, R82, R86): what it does by the state that it finds, what the axis is left with, and what it
leaves alone. -/

namespace Sys2Proof.Machine

variable {s : State} {a : AxisId}

/-! ### By state -/

theorem AxisRecord.clearRest_record (r : AxisRecord) : r.clearRest = { r with
    state := .idle, target := r.position, mover := none, joined := none, stopPending := .none
    ending := .reached, stepTimer := none, wakeTimer := none, settleTimer := none, releaseAtRest := false
    hold := if r.releaseAtRest then .released else r.hold
    holdTimer := if r.releaseAtRest then none else r.holdAtRest } := by
  unfold AxisRecord.clearRest
  dsimp only
  cases r.releaseAtRest
  · rw [if_neg Bool.false_ne_true, AxisRecord.startHold_eq]
    rfl
  · rfl

/-- The last step of CLEAR at an axis: its completion is collected and its ownership given up (R69). -/
def State.freeAxis (s : State) (a : AxisId) : State := s.setAxis a { s.axis a with
  completion := { (s.axis a).completion with pending := false }, ownership := .none }

theorem State.clearAxis_of_resting (rests : (s.axis a).state ∈ [.unhomed, .idle, .fault]) : s.clearAxis a = s.freeAxis a := by
  simp only [List.mem_cons, List.not_mem_nil, or_false] at rests
  unfold State.clearAxis
  dsimp only
  obtain h | h | h := rests <;> rw [h] <;> rfl

theorem State.clearAxis_of_waking (wakes : (s.axis a).state = .waking) :
    s.clearAxis a = (s.clearAxisRest a).freeAxis a := by
  unfold State.clearAxis
  dsimp only
  rw [wakes] <;> rfl

theorem State.clearAxis_of_moving (moves : (s.axis a).state = .moving) :
    s.clearAxis a = (s.setAxis a { s.axis a with stopPending := .clear }).freeAxis a := by
  unfold State.clearAxis
  dsimp only
  rw [moves] <;> rfl

theorem State.clearAxis_of_settling (settles : (s.axis a).state = .settling) :
    s.clearAxis a = (if (s.axis a).settlingHome then (s.clearAxisRest a).homingDone a else s.clearAxisRest a).freeAxis a := by
  unfold State.clearAxis
  dsimp only
  rw [settles] <;> rfl

theorem State.clearAxis_of_homingSettles (settles : (s.axis a).state = .settling) (homed : (s.axis a).ending = .homed) :
    s.clearAxis a = ((s.clearAxisRest a).homingDone a).freeAxis a := by
  rw [State.clearAxis_of_settling settles, if_pos (AxisRecord.settlingHome_iff.mpr ⟨settles, homed⟩)]

theorem State.clearAxis_of_moveSettles (settles : (s.axis a).state = .settling) (notHomed : (s.axis a).ending ≠ .homed) :
    s.clearAxis a = (s.clearAxisRest a).freeAxis a := by
  rw [State.clearAxis_of_settling settles, if_neg fun home => notHomed (AxisRecord.settlingHome_iff.mp home).2]

theorem State.clearAxis_of_homing (homes : (s.axis a).state = .homing) (noWake : (s.axis a).wakeTimer = none) :
    s.clearAxis a = (s.setAxis a { s.axis a with stopPending := .clear }).freeAxis a := by
  unfold State.clearAxis
  dsimp only
  rw [homes, noWake] <;> rfl

theorem State.clearAxis_of_homingWakes (homes : (s.axis a).state = .homing) (wakes : (s.axis a).wakeTimer ≠ none) :
    s.clearAxis a = (s.setAxis a (s.axis a).unhome).freeAxis a := by
  obtain ⟨time, wakes⟩ := Option.ne_none_iff_exists'.mp wakes
  unfold State.clearAxis
  dsimp only
  rw [homes, wakes] <;> rfl

theorem State.clearAxis_of_waitMap (waits : s.zoom.state = .waitMap) :
    s.clearAxis .zoom = ((s.setTravel s.travel.endWait).clearAxisRest .zoom).freeAxis .zoom := by
  unfold State.clearAxis
  dsimp only
  rw [show (s.axis .zoom).state = .waitMap from waits] <;> rfl

/-- No other axis waits for the map. -/
theorem State.clearAxis_of_noWaitMap (waits : (s.axis a).state = .waitMap) (notZoom : a ≠ .zoom) :
    s.clearAxis a = s.freeAxis a := by
  unfold State.clearAxis
  dsimp only
  rw [waits]
  simp only [if_neg notZoom]
  rfl

/-- Every part of CLEAR at an axis ends by giving the axis up, after a step that is one of these. -/
theorem State.clearAxis_cases (s : State) (a : AxisId) : ∃ u : State, s.clearAxis a = u.freeAxis a ∧
    (u = s ∨ u = s.clearAxisRest a ∨ u = (s.clearAxisRest a).homingDone a ∨
      (∃ r : AxisRecord, r.profile = (s.axis a).profile ∧ u = s.setAxis a r) ∨
      (a = .zoom ∧ u = (s.setTravel s.travel.endWait).clearAxisRest .zoom)) := by
  cases state : (s.axis a).state with
  | unhomed | idle | fault => exact ⟨s, State.clearAxis_of_resting (by simp [state]), .inl rfl⟩
  | waking => exact ⟨_, State.clearAxis_of_waking state, .inr (.inl rfl)⟩
  | moving => exact ⟨_, State.clearAxis_of_moving state, .inr (.inr (.inr (.inl ⟨{ s.axis a with stopPending := .clear }, rfl, rfl⟩)))⟩
  | settling =>
    by_cases homed : (s.axis a).ending = .homed
    · exact ⟨_, State.clearAxis_of_homingSettles state homed, .inr (.inr (.inl rfl))⟩
    · exact ⟨_, State.clearAxis_of_moveSettles state homed, .inr (.inl rfl)⟩
  | homing =>
    by_cases noWake : (s.axis a).wakeTimer = none
    · exact ⟨_, State.clearAxis_of_homing state noWake,
        .inr (.inr (.inr (.inl ⟨{ s.axis a with stopPending := .clear }, rfl, rfl⟩)))⟩
    · refine ⟨_, State.clearAxis_of_homingWakes state noWake, .inr (.inr (.inr (.inl ⟨_, ?_, rfl⟩)))⟩
      rw [AxisRecord.unhome_eq]
  | waitMap =>
    by_cases isZoom : a = .zoom
    · subst isZoom
      exact ⟨_, State.clearAxis_of_waitMap state, .inr (.inr (.inr (.inr ⟨rfl, rfl⟩)))⟩
    · exact ⟨s, State.clearAxis_of_noWaitMap state isZoom, .inl rfl⟩

/-! ### What it leaves alone -/

/-- What a resolution, a tracked load and CLEAR at an axis leave alone: the resolver's codes, the reports and drains in flight,
and the pins of the part. -/
def State.beside (s : State) : Nat × Nat × Option Nat × List Report × Nat × Pins :=
  (s.resolver.mode, s.resolver.accessory, s.resolver.pendingCode, s.handoffs.reports, s.handoffs.drains, s.pins)

section
variable (s)

@[simp] theorem State.setAxis_beside (a : AxisId) (r : AxisRecord) : (s.setAxis a r).beside = s.beside := by cases a <;> rfl
@[simp] theorem State.setTravel_beside (x : ZoomTravel) : (s.setTravel x).beside = s.beside := rfl

@[simp] theorem State.unresolve_beside : s.unresolve.beside = s.beside := by
  unfold State.unresolve
  split <;> rfl

@[simp] theorem State.load_beside (i : Fin 32) (q : Pair) : (s.load i q).beside = s.beside := rfl

@[simp] theorem State.writeMiss_beside (q : Pair) (m : MissSource) : (s.writeMiss q m).beside = s.beside :=
  s.unresolve_beside

@[simp] theorem State.resolveHere_beside (m : MissSource) : (s.resolveHere m).beside = s.beside := by
  unfold State.resolveHere State.resolveBand
  split
  · dsimp only
    split <;> simp
  · simp

@[simp] theorem State.resolveWaiting_beside (band : Nat) (m : MissSource) : (s.resolveWaiting band m).beside = s.beside := by
  unfold State.resolveWaiting State.zoomForbidden
  split <;> simp

@[simp] theorem State.resolve_beside (m : MissSource) : (s.resolve m).beside = s.beside := by
  unfold State.resolve
  repeat' split
  · rfl
  · rfl
  · exact s.resolveWaiting_beside _ m
  · exact s.resolveHere_beside m
  · exact s.resolveHere_beside m

@[simp] theorem State.internalMove_beside (a : AxisId) (n : Nat) (m : Mover) : (s.internalMove a n m).beside = s.beside :=
  s.setAxis_beside a _

@[simp] theorem State.applyOwed_beside : s.applyOwed.beside = s.beside := by
  unfold State.applyOwed
  dsimp only
  repeat' split
  all_goals simp

@[simp] theorem State.homingDone_beside (a : AxisId) : (s.homingDone a).beside = s.beside := by
  cases a
  case zoom => exact s.resolve_beside _
  case focus =>
    unfold State.homingDone State.focusHomed
    dsimp only
    repeat' split
    all_goals simp
  case iris => rfl

@[simp] theorem State.clearAxisRest_beside (a : AxisId) : (s.clearAxisRest a).beside = s.beside := by
  unfold State.clearAxisRest
  dsimp only
  split <;> simp

@[simp] theorem State.freeAxis_beside (a : AxisId) : (s.freeAxis a).beside = s.beside := s.setAxis_beside a _

@[simp] theorem State.clearAxis_beside (a : AxisId) : (s.clearAxis a).beside = s.beside := by
  obtain ⟨u, cleared, h | h | h | ⟨r, -, h⟩ | ⟨-, h⟩⟩ := s.clearAxis_cases a <;> rw [cleared, h] <;> simp

@[simp] theorem State.track_beside (l : TrackLoad) : (s.track l).beside = s.beside := by
  unfold State.track
  dsimp only
  repeat' split
  all_goals simp

theorem State.foldl_track_beside (l : List TrackLoad) : ∀ u : State, (l.foldl State.track u).beside = u.beside := by
  induction l with
  | nil => exact fun u => rfl
  | cons x l ih => exact fun u => (ih (u.track x)).trans (u.track_beside x)

@[simp] theorem State.deliverLoads_beside : s.deliverLoads.beside = s.beside := State.foldl_track_beside _ _

/-- CLEAR at an axis leaves the other blocks alone. -/
@[simp] theorem State.clearAxis_others (a : AxisId) : (s.clearAxis a).others = s.others := by
  obtain ⟨u, cleared, h | h | h | ⟨r, -, h⟩ | ⟨-, h⟩⟩ := s.clearAxis_cases a <;> rw [cleared, h, State.freeAxis]
  all_goals simp [State.clearAxisRest]
  all_goals split <;> simp

end

/-! ### The other axes, and the wait for the map -/

/-- The zoom's wait for the map (R72). -/
def State.mapWait (s : State) : Bool × Option Nat × Option Direction :=
  (s.travel.refillTimer, s.travel.bandWaited, s.travel.crossing)

theorem State.applyOwed_axis {b : AxisId} (notFocus : b ≠ .focus) : s.applyOwed.axis b = s.axis b := by
  unfold State.applyOwed
  dsimp only
  repeat' split
  · cases b <;> rfl
  · exact State.setAxis_other notFocus
  · rfl

theorem State.applyOwed_mapWait (s : State) : s.applyOwed.mapWait = s.mapWait := by
  unfold State.applyOwed
  dsimp only
  repeat' split
  all_goals rfl

/-- The hand-off of a completed homing moves FOCUS alone, and that only for its own homing. -/
theorem State.homingDone_axis {b : AxisId} (keeps : b ≠ .focus ∨ a ≠ .focus)
    (noWait : a = .zoom → s.zoom.state ≠ .waitMap) : (s.homingDone a).axis b = s.axis b := by
  cases a
  case zoom => exact State.resolve_axis (noWait rfl) b
  case focus =>
    unfold State.homingDone State.focusHomed
    dsimp only
    repeat' split
    · rfl
    · exact State.setAxis_other (keeps.resolve_right (not_not_intro rfl))
    · rfl
  case iris => rfl

theorem State.clearAxisRest_of_notFocus (notFocus : a ≠ .focus) :
    s.clearAxisRest a = s.setAxis a (s.axis a).clearRest := if_neg notFocus

theorem State.clearAxisRest_axis_other {b : AxisId} (other : b ≠ a) : (s.clearAxisRest a).axis b = s.axis b := by
  by_cases isFocus : a = .focus
  · subst isFocus
    exact (State.applyOwed_axis other).trans (State.setAxis_other other)
  · rw [State.clearAxisRest_of_notFocus isFocus, State.setAxis_other other]

/-- ZOOM is at rest after its own part. -/
theorem State.clearAxisRest_noWait (isZoom : a = .zoom) : (s.clearAxisRest a).zoom.state ≠ .waitMap := by
  subst isZoom
  show (s.axis .zoom).clearRest.state ≠ _
  rw [AxisRecord.clearRest_state]
  decide

theorem State.freeAxis_axis_same (s : State) (a : AxisId) : (s.freeAxis a).axis a = { s.axis a with
    completion := { (s.axis a).completion with pending := false }, ownership := .none } := s.axis_setAxis_same a _

theorem State.freeAxis_axis_other {b : AxisId} (other : b ≠ a) : (s.freeAxis a).axis b = s.axis b :=
  State.setAxis_other other

theorem State.clearAxis_axis_other {b : AxisId} (other : b ≠ a) : (s.clearAxis a).axis b = s.axis b := by
  obtain ⟨u, cleared, h | h | h | ⟨r, -, h⟩ | ⟨isZoom, h⟩⟩ := s.clearAxis_cases a <;>
    rw [cleared, State.freeAxis_axis_other other, h]
  · exact State.clearAxisRest_axis_other other
  · rw [State.homingDone_axis ?_ State.clearAxisRest_noWait, State.clearAxisRest_axis_other other]
    by_contra both
    exact other ((not_or.mp both).elim fun b a => (not_not.mp b).trans (not_not.mp a).symm)
  · exact State.setAxis_other other
  · subst isZoom
    exact State.clearAxisRest_axis_other other

/-- Away from ZOOM, CLEAR at an axis leaves the wait for the map as it is. -/
theorem State.clearAxis_mapWait (notZoom : a ≠ .zoom) : (s.clearAxis a).mapWait = s.mapWait := by
  have set_mapWait (u : State) (r : AxisRecord) : (u.setAxis a r).mapWait = u.mapWait := by
    rw [State.mapWait, State.setAxis_travel, State.mapWait]
  have rest_mapWait : (s.clearAxisRest a).mapWait = s.mapWait := by
    unfold State.clearAxisRest
    dsimp only
    split
    · rw [State.applyOwed_mapWait, set_mapWait]
    · exact set_mapWait s _
  have homed_mapWait (u : State) : (u.homingDone a).mapWait = u.mapWait := by
    cases a
    case zoom => exact absurd rfl notZoom
    case focus =>
      unfold State.homingDone State.focusHomed
      dsimp only
      repeat' split
      all_goals rfl
    case iris => rfl
  obtain ⟨u, cleared, h | h | h | ⟨r, -, h⟩ | ⟨isZoom, h⟩⟩ := s.clearAxis_cases a <;>
    rw [cleared, State.freeAxis, set_mapWait, h]
  · exact rest_mapWait
  · rw [homed_mapWait, rest_mapWait]
  · exact set_mapWait s r
  · exact absurd isZoom notZoom

/-! ### The axis itself -/

theorem State.applyOwed_profile (s : State) (b : AxisId) : (s.applyOwed.axis b).profile = (s.axis b).profile := by
  by_cases isFocus : b = .focus
  · subst isFocus
    unfold State.applyOwed
    dsimp only
    repeat' split
    · rfl
    · exact (AxisRecord.internal_keeps _ _ _).1
    · rfl
  · rw [State.applyOwed_axis isFocus]

theorem State.homingDone_profile (noWait : a = .zoom → s.zoom.state ≠ .waitMap) :
    ((s.homingDone a).axis a).profile = (s.axis a).profile := by
  by_cases isFocus : a = .focus
  · subst isFocus
    unfold State.homingDone State.focusHomed
    dsimp only
    repeat' split
    · rfl
    · exact (AxisRecord.internal_keeps _ _ _).1
    · rfl
  · rw [State.homingDone_axis (.inr isFocus) noWait]

theorem State.clearAxisRest_profile (s : State) (a : AxisId) : ((s.clearAxisRest a).axis a).profile = (s.axis a).profile := by
  have rest : ((s.setAxis a (s.axis a).clearRest).axis a).profile = (s.axis a).profile := by
    rw [State.axis_setAxis_same, AxisRecord.clearRest_record]
  unfold State.clearAxisRest
  dsimp only
  split
  · rw [State.applyOwed_profile, rest]
  · exact rest

/-- Every axis is left with its completion collected, owned by nothing, and with its profile (R69). -/
theorem State.clearAxis_axis_same (s : State) (a : AxisId) : ((s.clearAxis a).axis a).completion.pending = false ∧
    ((s.clearAxis a).axis a).ownership = .none ∧ ((s.clearAxis a).axis a).profile = (s.axis a).profile := by
  obtain ⟨u, cleared, step⟩ := s.clearAxis_cases a
  rw [cleared, State.freeAxis_axis_same]
  refine ⟨rfl, rfl, ?_⟩
  show (u.axis a).profile = _
  obtain h | h | h | ⟨r, sameProfile, h⟩ | ⟨isZoom, h⟩ := step <;> rw [h]
  · exact s.clearAxisRest_profile a
  · rw [State.homingDone_profile State.clearAxisRest_noWait, State.clearAxisRest_profile]
  · rw [State.axis_setAxis_same, sameProfile]
  · subst isZoom
    exact State.clearAxisRest_profile _ _

/-- Away from FOCUS, whose owed tracking may set it off again, a move that has begun or settles is brought to rest (R69). -/
theorem State.clearAxis_rests (notFocus : a ≠ .focus) (begun : (s.axis a).state ∈ [.waking, .settling]) :
    ((s.clearAxis a).axis a).state = .idle ∧ ((s.clearAxis a).axis a).mover = none ∧
      ((s.clearAxis a).axis a).target = (s.axis a).position := by
  have rested : (s.clearAxisRest a).axis a = (s.axis a).clearRest := by
    rw [State.clearAxisRest_of_notFocus notFocus, State.axis_setAxis_same]
  have freed : (s.clearAxis a).axis a = { (s.axis a).clearRest with
      completion := { (s.axis a).clearRest.completion with pending := false }, ownership := .none } := by
    simp only [List.mem_cons, List.not_mem_nil, or_false] at begun
    obtain waking | settling := begun
    · rw [State.clearAxis_of_waking waking, State.freeAxis_axis_same, rested]
    · rw [State.clearAxis_of_settling settling, State.freeAxis_axis_same]
      split
      · rw [State.homingDone_axis (.inr notFocus) State.clearAxisRest_noWait, rested]
      · rw [rested]
  rw [freed, AxisRecord.clearRest_record]
  exact ⟨rfl, rfl, rfl⟩

theorem State.clearAxis_axis_of_resting (rests : (s.axis a).state ∈ [.unhomed, .idle, .fault]) :
    ((s.clearAxis a).axis a).state = (s.axis a).state := by
  rw [State.clearAxis_of_resting rests, State.freeAxis_axis_same]

/-- A move in progress, or a homing under way, stops at its next decision point (R69). -/
theorem State.clearAxis_axis_of_going (going : (s.axis a).state = .moving ∨
      (s.axis a).state = .homing ∧ (s.axis a).wakeTimer = none) :
    ((s.clearAxis a).axis a).state = (s.axis a).state ∧ ((s.clearAxis a).axis a).stopPending = .clear := by
  have stops : s.clearAxis a = (s.setAxis a { s.axis a with stopPending := .clear }).freeAxis a :=
    going.elim State.clearAxis_of_moving fun h => State.clearAxis_of_homing h.1 h.2
  rw [stops, State.freeAxis_axis_same, State.axis_setAxis_same]
  exact ⟨rfl, rfl⟩

theorem State.clearAxis_axis_of_homingWakes (homes : (s.axis a).state = .homing) (wakes : (s.axis a).wakeTimer ≠ none) :
    ((s.clearAxis a).axis a).state = .unhomed := by
  rw [State.clearAxis_of_homingWakes homes wakes, State.freeAxis_axis_same, State.axis_setAxis_same,
    AxisRecord.unhome_eq]

/-- ZOOM's wait for the map ends where it stands (R86). -/
theorem State.clearAxis_zoom_of_waitMap (waits : s.zoom.state = .waitMap) :
    (s.clearAxis .zoom).zoom.state = .idle ∧ (s.clearAxis .zoom).zoom.target = s.zoom.position ∧
      (s.clearAxis .zoom).mapWait = (false, none, none) := by
  rw [State.clearAxis_of_waitMap waits, State.clearAxisRest_of_notFocus (by decide), AxisRecord.clearRest_record]
  exact ⟨rfl, rfl, rfl⟩

end Sys2Proof.Machine
end

