-- ==== Sys2Proof/Proofs/ClearWhole.lean ====
section
/-! CLEAR as a whole (R42, R69, R86, R103, R121, R136, R149, R173, R180): the resolver's part, the axes, and the blocks that end
it, in whichever order the parts are taken. -/

namespace Sys2Proof.Machine

variable {s : State} {a b : AxisId}

/-! ### The resolver's part (R42) -/

/-- The resolver without its pins, with a code that waited in force. -/
def Resolver.unpinned (r : Resolver) : Resolver := { r with
  slotPin := false, sweepPin := false, deferred := false, pendingCode := none
  accessory := r.pendingCode.getD r.accessory }

theorem State.clearResolver_eq (s : State) :
    s.clearResolver = ((s.setResolver s.resolver.unpinned).resolveHere .wake).postDrain := by
  unfold State.clearResolver
  dsimp only
  rw [Resolver.applyPending_eq]
  rfl

theorem State.zoomBand_of_known {position : Nat} (known : s.zoom.position = some position)
    (homed : s.zoom.state ∈ [.idle, .waking, .moving, .waitMap, .settling]) : s.zoomBand = some (position / 25) := by
  rw [State.zoomBand, if_pos (AxisState.homed_iff.mpr homed), known]
  rfl

section
variable {position : Nat} {i : Fin 32}

theorem State.clearResolver_of_found (here : s.zoomBand = some (position / 25))
    (found : s.map.lookup ⟨s.resolver.unpinned.context, position / 25⟩ = some i) :
    s.clearResolver = ((s.setResolver s.resolver.unpinned).load i
      ⟨s.resolver.unpinned.context, position / 25⟩).postDrain := by
  rw [State.clearResolver_eq, State.resolveHere_of_found (s := s.setResolver s.resolver.unpinned) here found]
  rfl

theorem State.clearResolver_of_missed (here : s.zoomBand = some (position / 25))
    (missed : s.map.lookup ⟨s.resolver.unpinned.context, position / 25⟩ = none) :
    s.clearResolver = ((s.setResolver s.resolver.unpinned).writeMiss
      ⟨s.resolver.unpinned.context, position / 25⟩ .wake).postDrain := by
  rw [State.clearResolver_eq, State.resolveHere_of_missed (s := s.setResolver s.resolver.unpinned) here missed]
  rfl

theorem State.clearResolver_of_notHomed (noBand : s.zoomBand = none) :
    s.clearResolver = (s.setResolver s.resolver.unpinned).unresolve.postDrain := by
  rw [State.clearResolver_eq, State.resolveHere_of_notHomed (s := s.setResolver s.resolver.unpinned) noBand]

end

/-- A resolution loads the record, notes a miss, or unresolves it (R31 to R33). -/
theorem State.resolveHere_cases (s : State) (m : MissSource) : (∃ i q, s.resolveHere m = s.load i q) ∨
    (∃ q, s.resolveHere m = s.writeMiss q m) ∨ s.resolveHere m = s.unresolve := by
  cases here : s.zoomBand with
  | none => exact .inr (.inr (State.resolveHere_of_notHomed here))
  | some band =>
    cases found : s.map.lookup ⟨s.resolver.context, band⟩ with
    | none => exact .inr (.inl ⟨_, State.resolveHere_of_missed here found⟩)
    | some i => exact .inl ⟨i, _, State.resolveHere_of_found here found⟩

theorem State.resolveHere_deferred (s : State) (m : MissSource) :
    (s.resolveHere m).resolver.deferred = s.resolver.deferred := by
  obtain ⟨i, q, h⟩ | ⟨q, h⟩ | h := s.resolveHere_cases m <;> rw [h]
  · rfl
  · rw [State.writeMiss_eq]
  · rw [State.unresolve_eq]

theorem State.resolveHere_travel (s : State) (m : MissSource) : (s.resolveHere m).travel = s.travel := by
  obtain ⟨i, q, h⟩ | ⟨q, h⟩ | h := s.resolveHere_cases m <;> rw [h]
  · rfl
  · rw [State.writeMiss_eq]
  · rw [State.unresolve_eq]

theorem State.clearResolver_axis (s : State) (a : AxisId) : s.clearResolver.axis a = s.axis a := by
  rw [State.clearResolver_eq, State.postDrain_eq]
  exact State.resolveHere_axis (s := s.setResolver s.resolver.unpinned) a

theorem State.clearResolver_travel (s : State) : s.clearResolver.travel = s.travel := by
  rw [State.clearResolver_eq]
  exact State.resolveHere_travel (s.setResolver s.resolver.unpinned) .wake

theorem State.clearResolver_others (s : State) : s.clearResolver.others = s.others := by
  rw [State.clearResolver_eq]
  exact (State.resolveHere_others (s.setResolver s.resolver.unpinned) .wake)

theorem State.clearResolver_deferred (s : State) : s.clearResolver.resolver.deferred = false := by
  rw [State.clearResolver_eq]
  exact State.resolveHere_deferred (s.setResolver s.resolver.unpinned) .wake

theorem State.clearResolver_beside (s : State) : s.clearResolver.beside = (s.resolver.mode,
    s.resolver.pendingCode.getD s.resolver.accessory, none, s.handoffs.reports, s.handoffs.drains + 1, s.pins) := by
  have kept := State.resolveHere_beside (s.setResolver s.resolver.unpinned) .wake
  rw [State.clearResolver_eq]
  simp only [State.beside, Prod.mk.injEq] at kept ⊢
  obtain ⟨mode, accessory, code, reports, drains, pins⟩ := kept
  exact ⟨mode, accessory, code, reports, congrArg (· + 1) drains, pins⟩

theorem State.clearResolver_beside_of {t : State} (same : t.beside = s.beside) : t.clearResolver.beside =
    (s.resolver.mode, s.resolver.pendingCode.getD s.resolver.accessory, none, s.handoffs.reports, s.handoffs.drains + 1,
      s.pins) := by
  rw [State.clearResolver_beside]
  simp only [State.beside, Prod.mk.injEq] at same
  obtain ⟨mode, accessory, code, reports, drains, pins⟩ := same
  rw [mode, accessory, code, reports, drains, pins]

/-! ### The loads in flight (R78) -/

theorem State.track_axis (s : State) (l : TrackLoad) (notFocus : b ≠ .focus) : (s.track l).axis b = s.axis b := by
  unfold State.track
  dsimp only
  repeat' split
  · rfl
  · cases b <;> rfl
  · cases b <;> rfl
  · exact State.setAxis_other notFocus

theorem State.track_profile (s : State) (l : TrackLoad) (b : AxisId) :
    ((s.track l).axis b).profile = (s.axis b).profile := by
  by_cases isFocus : b = .focus
  · subst isFocus
    unfold State.track
    dsimp only
    repeat' split
    · rfl
    · rfl
    · rfl
    · exact (AxisRecord.internal_keeps _ _ _).1
  · rw [s.track_axis l isFocus]

theorem State.foldl_track_axis (l : List TrackLoad) (notFocus : b ≠ .focus) :
    ∀ u : State, (l.foldl State.track u).axis b = u.axis b := by
  induction l with
  | nil => exact fun u => rfl
  | cons x l ih => exact fun u => (ih (u.track x)).trans (u.track_axis x notFocus)

theorem State.foldl_track_profile (l : List TrackLoad) (b : AxisId) :
    ∀ u : State, ((l.foldl State.track u).axis b).profile = (u.axis b).profile := by
  induction l with
  | nil => exact fun u => rfl
  | cons x l ih => exact fun u => (ih (u.track x)).trans (u.track_profile x b)

theorem State.deliverLoads_axis (s : State) (notFocus : b ≠ .focus) : s.deliverLoads.axis b = s.axis b :=
  (State.foldl_track_axis _ notFocus _).trans (by cases b <;> rfl)

theorem State.deliverLoads_profile (s : State) (b : AxisId) : (s.deliverLoads.axis b).profile = (s.axis b).profile :=
  (State.foldl_track_profile _ b _).trans (by cases b <;> rfl)

/-! ### The axes (R69, R86) -/

/-- Each axis is left as its own part leaves it: the parts of the other axes leave it alone. -/
theorem State.clearAxes_axis (s : State) (a : AxisId) :
    ∃ u : State, u.axis a = s.axis a ∧ s.clearAxes.axis a = (u.clearAxis a).axis a := by
  cases a
  case zoom =>
    refine ⟨s, rfl, ?_⟩
    rw [State.clearAxes, State.clearAxis_axis_other (by decide), State.clearAxis_axis_other (by decide)]
  case focus =>
    refine ⟨s.clearAxis .zoom, State.clearAxis_axis_other (by decide), ?_⟩
    rw [State.clearAxes, State.clearAxis_axis_other (by decide)]
  case iris =>
    refine ⟨(s.clearAxis .zoom).clearAxis .focus, ?_, rfl⟩
    rw [State.clearAxis_axis_other (by decide), State.clearAxis_axis_other (by decide)]

theorem State.clearAxes_beside (s : State) : s.clearAxes.beside = s.beside := by simp [State.clearAxes]

theorem State.clearAxes_others (s : State) : s.clearAxes.others = s.others := by simp [State.clearAxes]

theorem State.clearAxes_places (s : State) : s.clearAxes.places = s.places := by simp [State.clearAxes]

theorem State.applyOwed_resolver (s : State) : s.applyOwed.resolver = s.resolver := by
  unfold State.applyOwed
  dsimp only
  repeat' split
  all_goals rfl

theorem State.clearAxisRest_resolver (s : State) (a : AxisId) : (s.clearAxisRest a).resolver = s.resolver := by
  unfold State.clearAxisRest
  dsimp only
  split
  · rw [State.applyOwed_resolver, State.setAxis_resolver]
  · exact State.setAxis_resolver ..

/-- With no pin, no resolution is put off (R37). -/
theorem State.resolve_deferred (m : MissSource) (unpinned : s.resolver.pinned = false) :
    (s.resolve m).resolver.deferred = s.resolver.deferred := by
  unfold State.resolve
  rw [if_neg (Bool.eq_false_iff.mp unpinned)]
  repeat' split
  · rfl
  · unfold State.resolveWaiting
    repeat' split
    · rfl
    · exact State.resolveHere_deferred _ _
    · rw [State.writeMiss_eq]
  · exact s.resolveHere_deferred m
  · exact s.resolveHere_deferred m

theorem State.homingDone_deferred (a : AxisId) (unpinned : s.resolver.pinned = false) :
    (s.homingDone a).resolver.deferred = s.resolver.deferred := by
  cases a
  case zoom => exact State.resolve_deferred _ unpinned
  case focus =>
    unfold State.homingDone State.focusHomed
    dsimp only
    repeat' split
    all_goals rfl
  case iris => rfl

theorem State.clearAxis_deferred (a : AxisId) (unpinned : s.resolver.pinned = false) :
    (s.clearAxis a).resolver.deferred = s.resolver.deferred := by
  obtain ⟨u, cleared, h | h | h | ⟨r, -, h⟩ | ⟨isZoom, h⟩⟩ := s.clearAxis_cases a <;>
    rw [cleared, State.freeAxis, State.setAxis_resolver, h]
  · rw [State.clearAxisRest_resolver]
  · rw [State.homingDone_deferred a (by rw [State.clearAxisRest_resolver]; exact unpinned), State.clearAxisRest_resolver]
  · rw [State.setAxis_resolver]
  · rw [State.clearAxisRest_resolver]
    rfl

theorem State.clearAxes_deferred (unpinned : s.resolver.pinned = false) :
    s.clearAxes.resolver.deferred = s.resolver.deferred := by
  have zoom : (s.clearAxis .zoom).resolver.pinned = false := by
    rw [State.pinned_of_places (s.clearAxis_places .zoom)]
    exact unpinned
  have focus : ((s.clearAxis .zoom).clearAxis .focus).resolver.pinned = false := by
    rw [State.pinned_of_places (State.clearAxis_places _ .focus)]
    exact zoom
  rw [State.clearAxes, State.clearAxis_deferred _ focus, State.clearAxis_deferred _ zoom, State.clearAxis_deferred _ unpinned]

end Sys2Proof.Machine
end

