-- ==== Sys2Proof/Proofs/ClearParts.lean ====
section
/-! What CLEAR leaves every block with, whichever orders its parts are taken in (R180; log 7). -/

namespace Sys2Proof.Machine

variable {s t : State} {a : AxisId}

/-! ### The blocks that end it (R103, R121, R136, R149, R173) -/

/-- The parts that keep to their own blocks, and the Stabilizer's part before or after the resolver's notices. -/
def State.clearBlocks (s : State) (noticesFirst : Bool) : State :=
  let t := if noticesFirst then s.clearRecords.flushStab else s.clearRecords
  t.setStab t.stab.clear

/-- The Stabilizer as its part of CLEAR finds it (R149). -/
def State.toldStab (s : State) (noticesFirst : Bool) : Stabilizer :=
  if noticesFirst then s.handoffs.stab.foldl Stabilizer.onNotice s.stab else s.stab

theorem State.clearRecords_eq (s : State) : s.clearRecords = { s with
    sweep := s.sweep.clear, meter := s.meter.stop, exposure := s.exposure.clear, release := s.release.clear s.pins } := rfl

theorem State.flushStab_clear (s : State) : s.flushStab.setStab s.flushStab.stab.clear = { s with
    stab := (s.toldStab true).clear, handoffs := { s.handoffs with stab := [] } } := rfl

theorem State.clearBlocks_eq (s : State) (noticesFirst : Bool) : s.clearBlocks noticesFirst = { s with
    sweep := s.sweep.clear, meter := s.meter.stop, exposure := s.exposure.clear, release := s.release.clear s.pins
    stab := (s.toldStab noticesFirst).clear
    handoffs := { s.handoffs with stab := if noticesFirst then [] else s.handoffs.stab } } := by
  cases noticesFirst
  case false => rfl
  case true =>
    have told : s.clearRecords.toldStab true = s.toldStab true := rfl
    refine s.clearRecords.flushStab_clear.trans ?_
    rw [told, State.clearRecords_eq]
    rfl

theorem SweepUnit.clear_of_running {w : SweepUnit} (runs : w.record.state.runs = true) : w.clear = { w with
    record := { w.record with state := .ended, awaiting := false, releasePending := false, outcome := none }
    deadline := false } := if_pos runs

theorem SweepUnit.clear_of_still {w : SweepUnit} (still : w.record.state.runs = false) : w.clear = w :=
  if_neg (Bool.eq_false_iff.mp still)

theorem SweepUnit.clear_preset (w : SweepUnit) : w.clear.preset = w.preset := by
  unfold SweepUnit.clear
  split <;> rfl

theorem SweepUnit.clear_awaiting (w : SweepUnit) :
    w.clear.record.awaiting = (w.record.awaiting && !w.record.state.runs) := by
  cases runs : w.record.state.runs
  · rw [SweepUnit.clear_of_still runs, Bool.not_false, Bool.and_true]
  · rw [SweepUnit.clear_of_running runs, Bool.not_true, Bool.and_false]

section
variable {u : Stabilizer}

theorem Stabilizer.clear_of_disabled (disabled : u.enabled = false) : u.clear = { u with exposureOpen := false } :=
  if_neg (Bool.eq_false_iff.mp disabled)

theorem Stabilizer.clear_of_resolved (enabled : u.enabled = true) (resolved : u.resolved = true) : u.clear = { u with
    exposureOpen := false, state := .centering, yaw := u.yaw.atCentering, pitch := u.pitch.atCentering
    silenceTimer := true } := by
  have entered : u.clear = { u.exposureEnd.enterByRecord with silenceTimer := true } := if_pos enabled
  rw [entered, Stabilizer.enterByRecord_of_resolved (by exact resolved)]
  rfl

theorem Stabilizer.clear_of_unresolved (enabled : u.enabled = true) (unresolved : u.resolved = false) :
    u.clear = { u with
      exposureOpen := false, state := .held, yaw := u.yaw.quieted, pitch := u.pitch.quieted, silenceTimer := true } := by
  have entered : u.clear = { u.exposureEnd.enterByRecord with silenceTimer := true } := if_pos enabled
  rw [entered, Stabilizer.enterByRecord_of_unresolved (by exact unresolved)]
  rfl

theorem Stabilizer.clear_setup (u : Stabilizer) :
    u.clear.enabled = u.enabled ∧ u.clear.panThreshold = u.panThreshold := by
  cases enabled : u.enabled
  · rw [Stabilizer.clear_of_disabled enabled]
    exact ⟨enabled, rfl⟩
  · cases resolved : u.resolved
    · rw [Stabilizer.clear_of_unresolved enabled resolved]
      exact ⟨enabled, rfl⟩
    · rw [Stabilizer.clear_of_resolved enabled resolved]
      exact ⟨enabled, rfl⟩

end

theorem State.toldStab_setup (s : State) (noticesFirst : Bool) :
    (s.toldStab noticesFirst).enabled = s.stab.enabled ∧ (s.toldStab noticesFirst).panThreshold = s.stab.panThreshold := by
  cases noticesFirst
  · exact ⟨rfl, rfl⟩
  · exact Stabilizer.foldl_onNotice_setup _ _

/-! ### Before and after the axes (R86; log 7) -/

/-- The parts of CLEAR before the axes. -/
def State.beforeAxes (s : State) (resolverFirst loadsFirst : Bool) : State :=
  let t := if resolverFirst then s.clearResolver else s
  if loadsFirst then t.deliverLoads else t

/-- The parts of CLEAR up to the blocks that end it. -/
def State.afterAxes (s : State) (resolverFirst loadsFirst : Bool) : State :=
  let t := (s.beforeAxes resolverFirst loadsFirst).clearAxes
  if resolverFirst then t else t.clearResolver

theorem State.clearParts_eq (s : State) (resolverFirst loadsFirst noticesFirst : Bool) :
    s.clearParts resolverFirst loadsFirst noticesFirst =
      (s.afterAxes resolverFirst loadsFirst).clearBlocks noticesFirst := rfl

section
variable (s) (resolverFirst loadsFirst : Bool)

theorem State.afterAxes_axis (a : AxisId) : (s.afterAxes resolverFirst loadsFirst).axis a =
    (s.beforeAxes resolverFirst loadsFirst).clearAxes.axis a := by
  cases resolverFirst
  · exact State.clearResolver_axis _ a
  · rfl

theorem State.afterAxes_travel : (s.afterAxes resolverFirst loadsFirst).travel =
    (s.beforeAxes resolverFirst loadsFirst).clearAxes.travel := by
  cases resolverFirst
  · exact State.clearResolver_travel _
  · rfl

theorem State.beforeAxes_axis (notFocus : a ≠ .focus) : (s.beforeAxes resolverFirst loadsFirst).axis a = s.axis a := by
  cases resolverFirst <;> cases loadsFirst
  · rfl
  · exact s.deliverLoads_axis notFocus
  · exact s.clearResolver_axis a
  · exact (s.clearResolver.deliverLoads_axis notFocus).trans (s.clearResolver_axis a)

theorem State.beforeAxes_profile (a : AxisId) :
    ((s.beforeAxes resolverFirst loadsFirst).axis a).profile = (s.axis a).profile := by
  cases resolverFirst <;> cases loadsFirst
  · rfl
  · exact s.deliverLoads_profile a
  · exact congrArg AxisRecord.profile (s.clearResolver_axis a)
  · exact (s.clearResolver.deliverLoads_profile a).trans (congrArg AxisRecord.profile (s.clearResolver_axis a))

theorem State.afterAxes_others : (s.afterAxes resolverFirst loadsFirst).others = s.others := by
  cases resolverFirst <;> cases loadsFirst <;>
    simp [State.afterAxes, State.beforeAxes, State.clearResolver_others, State.clearAxes_others]

theorem State.afterAxes_aside : (s.afterAxes resolverFirst loadsFirst).aside = s.aside := by
  cases resolverFirst <;> cases loadsFirst <;> simp [State.afterAxes, State.beforeAxes]

theorem State.afterAxes_apart : (s.afterAxes resolverFirst loadsFirst).apart = s.apart := by
  cases resolverFirst <;> cases loadsFirst <;> simp [State.afterAxes, State.beforeAxes]

/-- The resolver's codes, and what is in flight and is not for the Stabilizer or FOCUS (R42). -/
theorem State.afterAxes_beside : (s.afterAxes resolverFirst loadsFirst).beside = (s.resolver.mode,
    s.resolver.pendingCode.getD s.resolver.accessory, none, s.handoffs.reports, s.handoffs.drains + 1, s.pins) := by
  cases resolverFirst
  · refine State.clearResolver_beside_of ((State.clearAxes_beside _).trans ?_)
    cases loadsFirst
    · rfl
    · exact s.deliverLoads_beside
  · refine (State.clearAxes_beside _).trans ?_
    cases loadsFirst
    · exact s.clearResolver_beside
    · exact s.clearResolver.deliverLoads_beside.trans s.clearResolver_beside

theorem State.afterAxes_places : (s.afterAxes resolverFirst loadsFirst).places = (false, false) := by
  cases resolverFirst
  · exact State.clearResolver_places _
  · refine (State.clearAxes_places _).trans ?_
    cases loadsFirst
    · exact s.clearResolver_places
    · exact (congrArg (fun r : Resolver => (r.slotPin, r.sweepPin)) s.clearResolver.deliverLoads_resolver).trans
        s.clearResolver_places

theorem State.afterAxes_deferred : (s.afterAxes resolverFirst loadsFirst).resolver.deferred = false := by
  cases resolverFirst
  · exact State.clearResolver_deferred _
  · have before : (s.beforeAxes true loadsFirst).resolver = s.clearResolver.resolver := by
      cases loadsFirst
      · rfl
      · exact s.clearResolver.deliverLoads_resolver
    refine (State.clearAxes_deferred ?_).trans ?_
    · rw [before]
      exact Resolver.pinned_eq_false (congrArg Prod.fst s.clearResolver_places) (congrArg Prod.snd s.clearResolver_places)
    · rw [before, State.clearResolver_deferred]

end

/-- Each axis is left as its own part leaves it (R69). -/
theorem State.afterAxes_clearAxis (s : State) (resolverFirst loadsFirst : Bool) (a : AxisId) : ∃ u : State,
    u.axis a = (s.beforeAxes resolverFirst loadsFirst).axis a ∧
      (s.afterAxes resolverFirst loadsFirst).axis a = (u.clearAxis a).axis a := by
  rw [State.afterAxes_axis]
  exact State.clearAxes_axis _ a

/-- ZOOM's wait for the map is over after CLEAR (R86). -/
theorem State.afterAxes_of_waitMap (resolverFirst loadsFirst : Bool) (waits : s.zoom.state = .waitMap) :
    (s.afterAxes resolverFirst loadsFirst).mapWait = (false, none, none) := by
  have before := s.beforeAxes_axis (a := .zoom) resolverFirst loadsFirst (by decide)
  have sameTravel : (s.afterAxes resolverFirst loadsFirst).mapWait =
      (s.beforeAxes resolverFirst loadsFirst).clearAxes.mapWait := by
    rw [State.mapWait, State.afterAxes_travel, State.mapWait]
  rw [sameTravel, State.clearAxes, State.clearAxis_mapWait (by decide), State.clearAxis_mapWait (by decide)]
  exact (State.clearAxis_zoom_of_waitMap ((congrArg AxisRecord.state before).trans waits)).2.2

/-! ### The command (R180) -/

theorem exec_clear (ready : s.ready) : ∃ resolverFirst loadsFirst noticesFirst : Bool, exec (.clear []) s =
    .next ((({ s with freeCount := s.freeCount + 3 } : State).clearParts resolverFirst loadsFirst
      noticesFirst).settleZero.answer ⟨.done, []⟩) :=
  ⟨Config.freeChoice s.freeCount, Config.freeChoice (s.freeCount + 1), Config.freeChoice (s.freeCount + 2),
    request_withParams_some (owner := clearOwner) ready rfl⟩

/-- Settles O59. -/
theorem clearBringsEveryBlockToRest : Obligations.ClearBringsEveryBlockToRest := by
  unfold Obligations.ClearBringsEveryBlockToRest
  refine ⟨fun s => exec_clear, ?parts, fun s r isResolver => ?resolver,
    fun s u v a r rest freed isRecord isFreed isRest isU isV => ?axis⟩
  case parts =>
    intro s t first second third fourth resolverFirst loadsFirst noticesFirst isT isFirst isSecond isThird isFourth
    have isBefore : second = s.beforeAxes resolverFirst loadsFirst := by rw [isSecond, isFirst]; rfl
    have isCleared : third = (s.beforeAxes resolverFirst loadsFirst).clearAxes := by rw [isThird, isBefore]; rfl
    have isAfter : fourth = s.afterAxes resolverFirst loadsFirst := by rw [isFourth, isCleared]; rfl
    rw [State.clearParts_eq, ← isAfter, State.clearBlocks_eq] at isT
    have axes (a : AxisId) : fourth.axis a = third.axis a := by rw [isAfter, State.afterAxes_axis, isCleared]
    have travel : fourth.travel = third.travel := by rw [isAfter, State.afterAxes_travel, isCleared]
    have others : fourth.others = s.others := by rw [isAfter, State.afterAxes_others]
    have aside : fourth.aside = s.aside := by rw [isAfter, State.afterAxes_aside]
    have apart : fourth.apart = s.apart := by rw [isAfter, State.afterAxes_apart]
    have beside := s.afterAxes_beside resolverFirst loadsFirst
    have places := s.afterAxes_places resolverFirst loadsFirst
    have deferred := s.afterAxes_deferred resolverFirst loadsFirst
    rw [← isAfter] at beside places deferred
    simp only [State.beside, State.places, Prod.mk.injEq] at beside places
    obtain ⟨mode, accessory, code, reports, drains, pins⟩ := beside
    obtain ⟨slotPin, sweepPin⟩ := places
    have told := fourth.toldStab_setup noticesFirst
    have stab := State.stab_of_others others
    rw [stab] at told
    rw [State.sweep_of_others others, State.exposure_of_others others, State.release_of_others others,
      State.meter_of_apart apart, pins] at isT
    have axis (a : AxisId) : ∃ u : State, u.axis a = (s.beforeAxes resolverFirst loadsFirst).axis a ∧
        t.axis a = (u.clearAxis a).axis a := by
      have sameAxis : t.axis a = fourth.axis a := by rw [isT]; cases a <;> rfl
      rw [sameAxis, isAfter]
      exact s.afterAxes_clearAxis resolverFirst loadsFirst a
    subst isT
    refine ⟨rfl, fun a => ?axes, travel, rfl, reports, State.map_of_aside aside, drains, slotPin, sweepPin, deferred, code,
      accessory, mode, fun a => ?freed, fun a notFocus => ?rests, fun waits => ?waitMap, s.sweep.clear_preset,
      s.sweep.clear_awaiting, fun runs => ?sweepRuns, SweepUnit.clear_of_still, rfl, rfl, fun u isTold => ?stab,
      (Stabilizer.clear_setup _).1.trans told.1, (Stabilizer.clear_setup _).2.trans told.2, rfl,
      State.holdOff_of_aside aside, (State.standby_of_apart apart :), State.link_of_aside aside⟩
    case axes =>
      rw [← axes]
      cases a <;> rfl
    case freed =>
      obtain ⟨u, same, cleared⟩ := axis a
      rw [cleared, ← s.beforeAxes_profile resolverFirst loadsFirst a, ← same]
      exact u.clearAxis_axis_same a
    case rests =>
      obtain ⟨u, same, cleared⟩ := axis a
      rw [s.beforeAxes_axis resolverFirst loadsFirst notFocus] at same
      rw [cleared, ← same]
      refine ⟨State.clearAxis_axis_of_resting, State.clearAxis_rests notFocus, fun moves => ?_,
        State.clearAxis_axis_of_homingWakes, fun homes noWake => ?_⟩
      · rw [← moves]
        exact State.clearAxis_axis_of_going (.inl moves)
      · rw [← homes]
        exact State.clearAxis_axis_of_going (.inr ⟨homes, noWake⟩)
    case waitMap =>
      obtain ⟨u, same, cleared⟩ := axis .zoom
      have same : u.zoom = s.zoom := same.trans (s.beforeAxes_axis resolverFirst loadsFirst (by decide))
      obtain ⟨idle, target, -⟩ := State.clearAxis_zoom_of_waitMap ((congrArg AxisRecord.state same).trans waits)
      have ended := State.afterAxes_of_waitMap resolverFirst loadsFirst waits
      rw [← isAfter] at ended
      simp only [State.mapWait, Prod.mk.injEq] at ended
      rw [← same]
      exact ⟨(congrArg AxisRecord.state cleared).trans idle, (congrArg AxisRecord.target cleared).trans target, ended⟩
    case sweepRuns =>
      dsimp only
      rw [SweepUnit.clear_of_running runs]
      exact ⟨rfl, rfl, rfl, rfl⟩
    case stab =>
      rw [← stab] at isTold
      subst isTold
      exact ⟨rfl, Stabilizer.clear_of_disabled, Stabilizer.clear_of_resolved, Stabilizer.clear_of_unresolved⟩
  case resolver =>
    replace isResolver : r = s.resolver.unpinned := isResolver
    subst isResolver
    refine ⟨fun position pair known homed isPair => ⟨fun i found => ?found, fun missed => ?missed⟩, fun notHomed => ?notHomed⟩
    case found =>
      subst isPair
      rw [State.clearResolver_of_found (State.zoomBand_of_known known homed) (by exact found)]
      rfl
    case missed =>
      subst isPair
      rw [State.clearResolver_of_missed (State.zoomBand_of_known known homed) (by exact missed), State.writeMiss_eq]
      rfl
    case notHomed =>
      rw [State.clearResolver_of_notHomed (State.zoomBand_of_notHomed notHomed), State.unresolve_eq]
      rfl
  case axis =>
    have freed_eq (x : State) : freed x = x.freeAxis a := isFreed x
    have rested : s.clearAxisRest a = u := by
      rw [isU, isRest, isRecord, ← AxisRecord.clearRest_record]
      rfl
    have handedOn : (s.clearAxisRest a).homingDone a = v := by
      rw [isV, rested]
      cases a <;> rfl
    subst isRecord
    simp only [freed_eq]
    refine ⟨State.clearAxis_of_resting, fun waking => ?waking, State.clearAxis_of_moving, fun settling notHomed => ?settles,
      fun settling homed => ?homed, State.clearAxis_of_homing, fun homes wakes => ?wakes, fun isZoom waits => ?waits⟩
    case waking => rw [State.clearAxis_of_waking waking, rested]
    case settles => rw [State.clearAxis_of_moveSettles settling notHomed, rested]
    case homed => rw [State.clearAxis_of_homingSettles settling homed, handedOn]
    case wakes => rw [State.clearAxis_of_homingWakes homes wakes, AxisRecord.unhome_eq]
    case waits =>
      subst isZoom
      rw [State.clearAxis_of_waitMap waits, State.clearAxisRest_of_notFocus (by decide), AxisRecord.clearRest_record, isRest]
      rfl

end Sys2Proof.Machine
end

