-- ==== Sys2Proof/Proofs/Standby.lean ====
section
/-! The entry to standby, its parts that wait, and the waking (R24, R43, R70, R121, R136, R150, R174, R181, R182). -/

namespace Sys2Proof.Machine

variable {s t : State} {a : AxisId} {c : StandbyScope}

/-! ### The precondition (R181) -/

theorem State.mayStandby_iff (s : State) : s.mayStandby = true ↔
    (∀ a : AxisId, (s.axis a).state ∈ [.unhomed, .idle, .fault]) ∧
      s.sweep.record.state ∈ [.none, .ended] ∧ s.meter.running = false ∧
      (∀ i : Fin 12, (s.release.slots[i]).state = .free) ∧ s.map.queue = [] := by
  have axes : (∀ a : AxisId, (s.axis a).state ∈ [.unhomed, .idle, .fault]) ↔
      s.zoom.state.resting = true ∧ s.focus.state.resting = true ∧ s.iris.state.resting = true := by
    simp only [AxisState.resting_iff]
    exact ⟨fun all => ⟨all .zoom, all .focus, all .iris⟩, fun ⟨zoom, focus, iris⟩ a => by cases a <;> assumption⟩
  rw [axes, ← SweepState.runs_eq_false, ← Release.allFree_iff]
  simp [State.mayStandby, and_assoc]

/-! ### The parts taken in the event of the request (R24, R43, R136, R150) -/

theorem LensMap.enterStandby_valid (m : LensMap) (c : StandbyScope) (i : Fin 32) :
    (m.enterStandby c).entries[i] = { m.entries[i] with
      valid := match c with
        | .all => (m.entries[i]).valid
        | .locked => (m.entries[i]).valid && decide (i.val < m.lockCount)
        | .none => false } := by
  rw [LensMap.enterStandby_entry]
  cases c
  case all => rfl
  case none => rfl
  case locked =>
    by_cases locked : i.val < m.lockCount
    · rw [if_neg (by simpa [StandbyScope.retires] using locked)]
      simp only [locked, decide_true, Bool.and_true]
    · rw [if_pos (by simpa [StandbyScope.retires] using locked)]
      simp only [locked, decide_false, Bool.and_false]
      rfl

/-- The Stabilizer's part, whatever the map and the resolver have been left with. -/
theorem State.standbyStab_eq (s : State) (m : LensMap) (r : Resolver) :
    ({ s with standby := true, entering := true, map := m, resolver := r } : State).standbyStab = { s with
      standby := true, entering := true, map := m, resolver := r
      stab := (s.toldStab true).enterStandby, handoffs := { s.handoffs with stab := [] } } := rfl

/-- The parts taken in the event of the request, after the passes (R181). -/
theorem State.enterStandby_of_taken {u : State} (taken : s.takeScenes = u) : s.enterStandby c = { u with
    standby := true, entering := true, map := u.map.enterStandby c, resolver := u.resolver.enterStandby
    stab := (u.toldStab true).enterStandby
    handoffs := { u.handoffs with stab := [] } } := by
  rw [State.enterStandby, taken]
  simp only [State.setEntering_map, State.setStandby_map, State.setEntering_resolver,
    State.setStandby_resolver]
  generalize u.map.enterStandby c = m
  exact u.standbyStab_eq m u.resolver.enterStandby

/-- The passes handed over reach the exposure and the release alone. -/
theorem State.enterStandby_eq (s : State) (c : StandbyScope) : s.enterStandby c = { s with
    standby := true, entering := true, map := s.map.enterStandby c, resolver := s.resolver.enterStandby
    exposure := s.takeScenes.exposure, release := s.takeScenes.release
    stab := (s.toldStab true).enterStandby
    handoffs := { s.handoffs with scenes := [], stab := [] } } := by
  obtain ⟨e, state, awaited, taken⟩ := s.takeScenes_form
  have told : (((s.setHandoffs { s.handoffs with scenes := [] }).setExposure e).setRelease { s.release with
      state := state, lockAwaited := awaited }).toldStab true = s.toldStab true := rfl
  rw [State.enterStandby_of_taken taken, told, taken]
  rfl

theorem Stabilizer.enterStandby_eq (u : Stabilizer) : u.enterStandby = { u with
    state := .off, resolved := false, silenceTimer := false, yaw := ⟨0, 0, 0, 0, false⟩, pitch := ⟨0, 0, 0, 0, false⟩ } :=
  rfl

section
variable {p : Bytes} (read : scopeParam p = some c) (ready : s.ready)
include read ready

theorem exec_standby_of_busy (busy : ¬ s.mayStandby = true) : exec (.standby p) s = .next (s.answer ⟨.busy, []⟩) := by
  refine (request_withParams_some (owner := standbyOwner) ready read).trans ?_
  rw [standbyOwner, if_neg busy, plain]

theorem exec_standby_of_rests (rests : s.mayStandby = true) :
    exec (.standby p) s = .next ((s.enterStandby c).answer ⟨.done, []⟩) := by
  refine (request_withParams_some (owner := standbyOwner) ready read).trans ?_
  rw [standbyOwner, if_pos rests, done]

end

/-! ### The parts that wait (R70, R121, R174, R181) -/

theorem State.standbyAxis_of_resting (rests : (s.axis a).state ∈ [.unhomed, .idle, .fault]) :
    s.standbyAxis a = s.setAxis a { s.axis a with hold := .released, holdTimer := none } := by
  have letGo : s.standbyAxis a = s.setAxis a (s.axis a).letGo := by
    simp only [List.mem_cons, List.not_mem_nil, or_false] at rests
    unfold State.standbyAxis
    obtain h | h | h := rests <;> simp only [h]
  exact letGo

theorem State.standbyAxis_of_moving (moves : (s.axis a).state = .moving) : s.standbyAxis a = s.setAxis a { s.axis a with
    stopPending := .clear, releaseAtRest := true, holdTimer := none } := by
  unfold State.standbyAxis
  dsimp only
  rw [moves]

theorem State.standbyAxis_of_begun (begun : (s.axis a).state ∈ [.waking, .settling]) :
    s.standbyAxis a = s.setAxis a { s.axis a with
      state := .idle, target := (s.axis a).position, mover := none, joined := none, stopPending := .none, ending := .reached
      stepTimer := none, wakeTimer := none, settleTimer := none, hold := .released, holdTimer := none } := by
  have rested : s.standbyAxis a = s.setAxis a (s.axis a).rest.letGo := by
    simp only [List.mem_cons, List.not_mem_nil, or_false] at begun
    unfold State.standbyAxis
    obtain h | h := begun <;> simp only [h]
  exact rested

theorem State.standbyAxis_others (s : State) (a : AxisId) : (s.standbyAxis a).others = s.others := by
  unfold State.standbyAxis
  dsimp only
  split <;> exact s.setAxis_others a _

theorem State.standbyAxes_others (s : State) : s.standbyAxes.others = s.others := by
  rw [State.standbyAxes, State.standbyAxis_others, State.standbyAxis_others, State.standbyAxis_others,
    State.deliverLoads_others]

theorem State.takeScenes_stab (s : State) : s.takeScenes.stab = s.stab := by
  obtain ⟨e, state, awaited, taken⟩ := s.takeScenes_form
  rw [taken]
  rfl

/-- The parts of the entry that waited (R181). -/
theorem State.finishEntry_of_entering (entering : s.entering = true) : s.finishEntry = ((({ s.standbyAxes with
    meter := s.meter.enterStandby, entering := false } : State).takeScenes).standbyRelease) := by
  have meter : s.standbyAxes.meter = s.meter := State.meter_of_apart s.standbyAxes_apart
  unfold State.finishEntry
  rw [if_pos entering]
  dsimp only
  rw [meter]
  rfl

theorem State.finishEntry_stab (s : State) : s.finishEntry.stab = s.stab := by
  cases entering : s.entering
  · rw [State.finishEntry_id entering]
  · rw [State.finishEntry_of_entering entering, (State.standbyRelease_keeps _).2, State.takeScenes_stab]
    exact State.stab_of_others s.standbyAxes_others

section
variable {u : State} (letGo : (s.release.position = .none ∧ u = s) ∨ (s.release.position = .half ∧ u = s.halfLetGo) ∨
  (s.release.position = .full ∧ u = s.fullLetGo.halfLetGo))
include letGo

theorem State.standbyRelease_of_letGo : s.standbyRelease = { u with
    release := { u.release with halfTaken := false, fullTaken := false, state := .opened } } := by
  unfold State.standbyRelease
  obtain ⟨position, isLetGo⟩ | ⟨position, isLetGo⟩ | ⟨position, isLetGo⟩ := letGo <;> rw [position, isLetGo] <;> rfl

theorem State.letGo_exposure :
    u.exposure = if s.release.position = .none then s.exposure else { s.exposure with lock := .none } := by
  rw [← s.standbyRelease_keeps.1, State.standbyRelease_of_letGo letGo]

end

/-! ### The waking (R150, R182) -/

theorem Stabilizer.leaveStandby_of_enabled {u : Stabilizer} (enabled : u.enabled = true) :
    u.leaveStandby.silenceTimer = true ∧
      u.leaveStandby.state = if u.leaveStandby.resolved then .centering else .held := by
  rw [show u.leaveStandby = { u.enterByRecord with silenceTimer := true } from if_pos enabled]
  refine ⟨rfl, ?_⟩
  cases resolved : u.resolved
  · rw [Stabilizer.enterByRecord_of_unresolved resolved]
    exact (if_neg (Bool.eq_false_iff.mp resolved)).symm
  · rw [Stabilizer.enterByRecord_of_resolved resolved]
    exact (if_pos resolved).symm

theorem Stabilizer.leaveStandby_of_disabled {u : Stabilizer} (disabled : u.enabled = false) : u.leaveStandby = u :=
  if_neg (Bool.eq_false_iff.mp disabled)

/-- No notice takes the Stabilizer out of OFF (R143). -/
theorem State.toldStab_of_off (off : s.stab.state = .off) (noticesFirst : Bool) :
    (s.toldStab noticesFirst).state = .off := by
  cases noticesFirst
  · exact off
  · exact Stabilizer.foldl_onNotice_off _ _ off

/-- The part of the waking that is not the Stabilizer's: the record is resolved outside standby. -/
def State.resolvedAwake (e : State) : State := ({ e with standby := false } : State).resolve .wake

/-- The Stabilizer wakes, before or after the resolver's notices (R150; log 22). -/
theorem State.wakeStab_eq (v : State) (noticesFirst : Bool) :
    (if noticesFirst then v.flushStab else v).setStab (if noticesFirst then v.flushStab else v).stab.leaveStandby = { v with
      stab := (v.toldStab noticesFirst).leaveStandby
      handoffs := { v.handoffs with stab := if noticesFirst then [] else v.handoffs.stab } } := by
  cases noticesFirst <;> rfl

theorem State.wakeUp_eq (s : State) : ∃ noticesFirst : Bool, s.wakeUp = { s.finishEntry.resolvedAwake with
    stab := (s.finishEntry.resolvedAwake.toldStab noticesFirst).leaveStandby
    handoffs := { s.finishEntry.resolvedAwake.handoffs with
      stab := if noticesFirst then [] else s.finishEntry.resolvedAwake.handoffs.stab }
    freeCount := s.finishEntry.freeCount + 1 } := by
  refine ⟨Config.freeChoice s.finishEntry.freeCount, ?_⟩
  exact congrArg (State.setFreeCount · (s.finishEntry.freeCount + 1))
    (s.finishEntry.resolvedAwake.wakeStab_eq (Config.freeChoice s.finishEntry.freeCount))

/-- The record is resolved outside standby, so the other blocks keep what they have. -/
theorem State.resolvedAwake_keeps (e : State) : e.resolvedAwake.standby = false ∧ e.resolvedAwake.focus = e.focus ∧
    e.resolvedAwake.iris = e.iris ∧ e.resolvedAwake.meter = e.meter ∧ e.resolvedAwake.others = e.others ∧
    (e.zoom.state ≠ .waitMap → e.resolvedAwake.zoom = e.zoom) := by
  have apart : e.resolvedAwake.apart = ({ e with standby := false } : State).apart := State.resolve_apart _ _
  have lens := State.resolve_focus_iris { e with standby := false } .wake
  exact ⟨State.standby_of_apart apart, lens.1, lens.2, (State.meter_of_apart apart :), State.resolve_others _ _,
    State.resolve_zoom (s := { e with standby := false }) .wake⟩

theorem exec_wake_of_awake (free : s.link = .free) (awake : s.standby = false) :
    exec (.wake []) s = .next (s.answer ⟨.wrongState, []⟩) := by
  have owner : wakeOwner () s = (s, plain .wrongState) := if_neg (Bool.eq_false_iff.mp awake)
  refine (request_taken (owner := withParams noParams [] wakeOwner) free (.inr rfl)).trans ?_
  rw [withParams_some (show noParams [] = some () from rfl), owner]
  rfl

theorem exec_wake_of_standby (free : s.link = .free) (standby : s.standby = true) :
    exec (.wake []) s = .next (s.wakeUp.answer ⟨.done, []⟩) := by
  have owner : wakeOwner () s = (s.wakeUp, done []) := if_pos standby
  refine (request_taken (owner := withParams noParams [] wakeOwner) free (.inr rfl)).trans ?_
  rw [withParams_some (show noParams [] = some () from rfl), owner]
  rfl

/-- Settles O60. -/
theorem standbyIsEnteredAndLeft : Obligations.StandbyIsEnteredAndLeft := by
  unfold Obligations.StandbyIsEnteredAndLeft
  refine ⟨fun s p c rests read ready isRests => ?entry, fun s => rfl, fun s u m isU isM => ⟨State.finishEntry_id,
    fun entering => ?finish⟩, fun s u letGo => ⟨State.standbyRelease_of_letGo letGo, State.letGo_exposure letGo⟩,
    fun s a r isRecord => ?axis, fun s e free isEntered => ⟨exec_wake_of_awake free, fun standby => ?wake⟩⟩
  case entry =>
    rw [← State.mayStandby_iff] at isRests
    refine ⟨fun busy => exec_standby_of_busy read ready (mt isRests.mpr busy), fun quiet => ?_⟩
    have mayEnter := isRests.mp quiet
    refine ⟨s.enterStandby c, exec_standby_of_rests read ready mayEnter, ?_⟩
    have setup := (s.toldStab_setup true).1
    have map := s.map.enterStandby_keeps c
    have valid := s.map.enterStandby_valid c
    rw [State.enterStandby_eq, Stabilizer.enterStandby_eq]
    generalize s.map.enterStandby c = entered at map valid ⊢
    refine ⟨rfl, rfl, fun a => by cases a <;> rfl, rfl, rfl, rfl, map, valid, rfl, rfl, rfl, rfl, rfl,
      setup, rfl, rfl, rfl, rfl, fun noPass => ?_⟩
    rw [State.takeScenes_id noPass]
    exact ⟨rfl, rfl⟩
  case finish =>
    have isMeter : m = s.meter.enterStandby := by
      rw [isM]
      unfold MeterUnit.enterStandby MeterUnit.stop
      split <;> rfl
    rw [State.finishEntry_of_entering entering, isU, isMeter]
    rfl
  case axis =>
    subst isRecord
    exact ⟨State.standbyAxis_of_resting, State.standbyAxis_of_moving, State.standbyAxis_of_begun⟩
  case wake =>
    obtain ⟨noticesFirst, woken⟩ := s.wakeUp_eq
    have sameMap := State.map_of_aside s.wakeUp_aside
    rw [← isEntered] at woken
    obtain ⟨awake, focus, iris, meter, others, zoom⟩ := e.resolvedAwake_keeps
    have setup := (e.resolvedAwake.toldStab_setup noticesFirst).1
    have stab : e.resolvedAwake.stab = s.stab := by rw [State.stab_of_others others, isEntered, State.finishEntry_stab]
    have release := State.release_of_others others
    have exposure := State.exposure_of_others others
    rw [stab] at setup
    refine ⟨s.wakeUp, exec_wake_of_standby free standby, ?_⟩
    rw [woken] at sameMap ⊢
    refine ⟨awake, rfl, sameMap, focus, iris, meter, release, exposure, zoom,
      fun enabled => Stabilizer.leaveStandby_of_enabled (setup.trans enabled), fun disabled _ off => ?stillOff⟩
    case stillOff =>
      rw [Stabilizer.leaveStandby_of_disabled (setup.trans disabled)]
      exact State.toldStab_of_off ((congrArg Stabilizer.state stab).trans off) noticesFirst

end Sys2Proof.Machine
end
